-- ==== Sys2Proof/Word.lean ====
section
/-!
DEFINITION. The words of the SK96 and the two plain containers of its state: a sparse map by number and
a memory of bytes. Bit 0 is the least significant bit, and byte 0 holds bits [7:0] (R15).
-/
namespace Sys2Proof

/-- One byte. -/
abbrev Byte := BitVec 8

/-- A sparse table: the entries that differ from what an unlisted number reads as, by rising number. -/
abbrev Map (α : Type) := List (Nat × α)

/-- A memory: the bytes that differ from what an unlisted address reads as, by rising address. -/
abbrev Memory := List Host.Cell

/-- The largest value of a `w`-bit counter. -/
def maxOf (w : Nat) : Nat := 2 ^ w - 1

/-- A counter of `w` bits that stays at its maximum (R16, "saturates"). -/
def satAdd (w a b : Nat) : Nat := min (a + b) (maxOf w)

/-- Division rounded up. -/
def ceilDiv (a b : Nat) : Nat := (a + b - 1) / b

end Sys2Proof
end

