-- ==== Sys2Proof/Syntax.lean ====
section
/-!
DEFINITION. The commands of the SK96 as a block: what the host, the links, the pins and the device's own engines
do to it, one constructor per row of the opcode table, with the operands each one carries.
-/
namespace Sys2Proof

/-- The place of one instruction word: physical cluster, half (false: a, or the whole cluster unfolded), BP and
logical step (R25, R44). -/
structure Site where
  pc : BitVec 11
  half : Bool
  bp : BitVec 6
  step : BitVec 11
deriving DecidableEq, Repr

/-- What a memory read finds (R175): nothing wrong, a corrected error, an uncorrectable error, a failed tag. -/
inductive ReadErrorKind where
  | none | corrected | uncorrectable | tagFail
deriving DecidableEq, Repr

/-- An error found by the read half of a read-modify-write in commit action 3 (R176): port and SEQ of the write. -/
structure ReadError where
  tile : BitVec 7
  port : BitVec 5
  seq : BitVec 6
  kind : ReadErrorKind
deriving DecidableEq, Repr

/-- A register access: the PCIe function (0 the PF, 1 + p VF p, R339), the byte offset in the function's BAR0, whether it is 8 bytes
wide (else 4), and whether a word of the trace buffer that it reads has an uncorrectable error (R199). -/
structure Access where
  fn : BitVec 5
  off : BitVec 26
  wide : Bool
  uncorr : Bool
deriving DecidableEq, Repr

/-- A flit received on a lane (R287): TYPE, SEQ (0 for unsequenced types) and payload. A flit with a reserved TYPE or CSUB may come
under the name of any sequenced one: it is accepted in its order and discarded (R288). -/
structure Rx where
  lane : BitVec 7
  type : Byte
  seq : Byte
  payload : BitVec 224
deriving DecidableEq, Repr

/-- How a PTP message travels on the Ethernet port (R327): its domainNumber, and whether it is carried by UDP over IPv4 (Annex C) or by
Ethernet (Annex E). -/
structure PtpFrame where
  domain : Byte
  udp : Bool
deriving DecidableEq, Repr

/-- The line symbols of a flit as a lane received them (R283). -/
structure LineBlock where
  lane : BitVec 7
  symbols : List (BitVec 2)
deriving DecidableEq, Repr

/-- Bits that a lane's PRBS checker received, oldest first (R306). -/
structure PrbsBits where
  lane : BitVec 7
  bits : List Bool
deriving DecidableEq, Repr

/-- A command packet in a slot of a submission ring (R455): header fields and the parameter bytes; its OPCODE is the
command's. -/
structure Packet where
  flags : Byte
  version : Byte
  tag : BitVec 16
  length : BitVec 16
  scope : BitVec 32
  rsvd : BitVec 32
  params : List Byte
deriving DecidableEq, Repr

/-- A host access through BAR4 (R340): a read of a number of bytes, or a write of bytes. -/
inductive Bar4 where
  | read (n : BitVec 13)
  | write (data : List Byte)
deriving DecidableEq, Repr

/-- An access to the scratchpad (R484): the requester (0 Mule, 1 host, 2 JTAG, 3 the loader and the TAF configuration port), the
bank, the byte offset in it, whether it is 8 bytes wide (else 4), and the data of a write. -/
structure SpAccess where
  who : BitVec 2
  bank : BitVec 6
  off : BitVec 18
  wide : Bool
  write : Option (BitVec 64)
deriving DecidableEq, Repr

/-- What an access of the host link that fails was made for (R454). -/
inductive DmaTarget where
  | commandRing (r : BitVec 5)
  | queueRing (q : BitVec 15)
  | imageStream
deriving DecidableEq, Repr
/-- The commands of the block, one constructor per row of the opcode table, in the table's order. -/
inductive Instr where
  /-- TICK (R136). The commit controller releases the tick of the next cycle once every release condition holds, and every loaded cluster issues step 0. -/
  | tick (period : BitVec 32)
  /-- NOP (R76). A NOP word issues; it reads, writes and holds nothing. -/
  | nop (w : Site)
  /-- EVAL (R57). EVAL reads nets A to D and writes the truth-table bit they index to DST. -/
  | eval (w : Site)
  /-- EVALM (R58). EVALM writes the three-input truth-table bit to DST only when net D is 1. -/
  | evalm (w : Site)
  /-- LDS (R59). LDS writes the committed state bit at SADDR to DST. -/
  | lds (w : Site)
  /-- STS (R60). STS stores net A at SADDR in the next state buffer. -/
  | sts (w : Site)
  /-- MPA_ADDRESS (R64). MPA with SEL 0 writes net A into one bit of the MMP address register. -/
  | mpaAddress (w : Site)
  /-- MPA_DATA (R64). MPA with SEL 1 writes net A into one bit of the MMP data register. -/
  | mpaData (w : Site)
  /-- MPG_READ (R65). MPG with SEL 0 starts a model-memory read under SEQ, or marks the entry full of zeros when the enable is 0. -/
  | mpgRead (w : Site)
  /-- MPG_WRITE (R65). MPG with SEL 1 places a write on the port's write queue when the enable is 1. -/
  | mpgWrite (w : Site)
  /-- MPR (R66). MPR writes one bit of result-buffer entry SEQ to DST, holding the cluster while the entry is empty. -/
  | mpr (w : Site)
  /-- MSR (R68). MSR writes one bit of the port's current inbound message to DST. -/
  | msr (w : Site)
  /-- MSW (R69). MSW writes net A into one bit of the outbound message being built. -/
  | msw (w : Site)
  /-- MSP_POP (R70). MSP with SEL 0 and net A 1 requests a pop of the current inbound message at commit. -/
  | mspPop (w : Site)
  /-- MSP_PUSH (R70). MSP with SEL 1 and net A 1 requests a push of the outbound message at commit. -/
  | mspPush (w : Site)
  /-- CHK (R74). CHK counts and records a mismatch when A differs from B and C is 1. -/
  | chk (w : Site)
  /-- STOPC (R75). STOPC with net A 1 requests a stop after the cycle commits and records STOP_LOC. -/
  | stopc (w : Site)
  /-- TPO (R72). TPO records net A as the value of an outbound target bit. -/
  | tpo (w : Site)
  /-- TPI (R73). TPI writes the inbound target bit sampled at the tick to DST. -/
  | tpi (w : Site)
  /-- ILLEGAL_OP (R54). A word with an illegal opcode issues, executes nothing and raises ILLEGAL_OP. -/
  | illegalOp (w : Site)
  /-- SPECULATIVE_DECISION (R125). The die sequencer decides a block gated by a local slot when the cluster reaches it. -/
  | speculativeDecision (pc : BitVec 11) (half : Bool) (block : BitVec 6)
  /-- VALUE_RECORD (R95). A value record reaches its receive slot and enters the slot or its route buffer. -/
  | valueRecord (pc : BitVec 11) (rslot : BitVec 9)
  /-- CREDIT_RECORD (R97). A credit record returns one credit to the feeding route table entry. -/
  | creditRecord (tile : BitVec 7) (entry : BitVec 12)
  /-- FRAME_CLOSE (R109). An exchange frame closes when it holds 24 records or one step clock after its first record. -/
  | frameClose (m : BitVec 7) (die : BitVec 2) (dev : BitVec 9)
  /-- EXCHANGE_FRAME (R110). A frame engine receives an exchange frame, checks its SEQ and unpacks its records. -/
  | exchangeFrame (m : BitVec 7) (lost : BitVec 8)
  /-- BRIDGE_DOWN (R111). A bridge module fails to retrain within 20 µs or shows a SEQ gap, and the device stops. -/
  | bridgeDown (m : BitVec 7)
  /-- DIE_DONE (R130). A die sequencer raises die done once every cluster is done and every model-memory read has returned. -/
  | dieDone (die : BitVec 2)
  /-- COMMIT_PHASE (R131). The commit controller runs the commit phase on all four dies once the device is done. -/
  | commitPhase (errs : List ReadError)
  /-- HOLD_PORT_PUSH (R353). A HOLD port waiting at action 7 pushes once its queue has room, and the commit continues. -/
  | holdPortPush (tile : BitVec 7) (port : BitVec 4)
  /-- COMMIT_STALL (R134). Action 7 makes no progress for the limit, and COMMIT_STALL is raised while the commit keeps waiting. -/
  | commitStall
  /-- DEADLOCK (R144). The die watchdog count reaches NOPROGRESS_LIMIT, the deadlock report is written and the device stops. -/
  | deadlock (die : BitVec 2)
  /-- PACED_INSTANT (R139). A PACED instant is reached and the tick is released or the instant is skipped and counted. -/
  | pacedInstant (k : Nat) (period : BitVec 32)
  /-- PLL_RELOCK (R36). The step PLL finishes relocking at a new frequency between a commit and the next tick. -/
  | pllRelock
  /-- MMP_REQUEST_TAKE (R172). A port takes the request at the head of its queue and begins to serve it. -/
  | mmpRequestTake (tile : BitVec 7) (port : BitVec 5)
  /-- MMP_RESULT (R159). A model-memory read result arrives and fills its result-buffer entry. -/
  | mmpResult (tile : BitVec 7) (port : BitVec 5) (seq : BitVec 6) (err : ReadErrorKind)
  /-- SEQ_CTRL_RUN (R146). Writing 1 to SEQ_CTRL.RUN requests RUNNING from STOPPED. -/
  | seqCtrlRun
  /-- SEQ_CTRL_STOP (R146). Writing 1 to SEQ_CTRL.STOP requests a stop at the next stop decision while RUNNING. -/
  | seqCtrlStop
  /-- REGISTER_WRITE (R17). A write to a register with no row of its own updates its writable fields and counts reserved-bit writes. -/
  | registerWrite (a : Access) (v : BitVec 64)
  /-- RC_READ (R16). A read of an RC register returns its value and clears it. -/
  | rcRead (a : Access)
  /-- LATCHING_READ (R146). A read of the low word of a split register latches the high word. -/
  | latchingRead (a : Access)
  /-- IMAGE_LOAD (R219). IMAGE_LOAD is checked, replies PENDING and starts a full or PARTIAL load. -/
  | imageLoad (r : BitVec 5) (p : Packet) (header : List Byte)
  /-- LOAD_FETCH_COMPLETE (R225). The last byte of the stream is decrypted and staged, and VERIFY begins. -/
  | loadFetchComplete (dt : List Byte) (body : List Byte)
  /-- LOAD_VERIFY_COMPLETE (R218). The tags and signature are verified, and the load moves to CHECK or ends with AUTH_FAIL. -/
  | loadVerifyComplete
  /-- LOAD_CHECK_COMPLETE (R194). Every loader check is made, and the load moves to WRITE or is rejected. -/
  | loadCheckComplete
  /-- LOAD_WRITE_COMPLETE (R226). The arrays, tables, FAR regions and fabric are written and staging is cleared. -/
  | loadWriteComplete
  /-- TILE_WAKE (R509). A tile's power switches close and its arrays are cleared before its fence is released. -/
  | tileWake (tile : BitVec 7)
  /-- PARTIAL_LOAD_BOUNDARY (R229). At the first boundary after a PARTIAL load, the partition's tiles enter reset and crossing routes become DETACHED or SUBSTITUTE. -/
  | partialLoadBoundary
  /-- LOAD_RELEASE (R231). At the release boundary the exchange drains, credits reset and the partition is released. -/
  | loadRelease
  /-- IMAGE_ABORT (R223). IMAGE_ABORT ends a load before its release. -/
  | imageAbort (r : BitVec 5) (p : Packet)
  /-- IMAGE_UNLOAD (R233). IMAGE_UNLOAD removes a partition's image at the next boundary. -/
  | imageUnload (r : BitVec 5) (p : Packet)
  /-- UNLOAD_BOUNDARY (R233). At the next boundary an unload takes the partial-load actions and gates the partition's tiles. -/
  | unloadBoundary
  /-- FW_WRITE (R238). FW_WRITE writes bytes of the inactive firmware bank. -/
  | fwWrite (r : BitVec 5) (p : Packet) (data : List Byte)
  /-- FW_ACTIVATE (R238). FW_ACTIVATE verifies the inactive bank and writes a new bank selector. -/
  | fwActivate (r : BitVec 5) (p : Packet)
  /-- OPT_WRITE (R239). OPT_WRITE writes bytes of the option image in Mule memory. -/
  | optWrite (r : BitVec 5) (p : Packet)
  /-- OPT_COMMIT (R239). OPT_COMMIT programs the option image into NV memory and reads it back. -/
  | optCommit (r : BitVec 5) (p : Packet)
  /-- OPT_READ (R239). OPT_READ returns bytes of the option words. -/
  | optRead (r : BitVec 5) (p : Packet)
  /-- CFG_ERR_CLEAR (R234). Partition 0 writes 1 to LOAD_STATUS.CFG_ERR and deasserts CFG_ERR_N. -/
  | cfgErrClear
  /-- HELLO (R250). A HELLO message is received and the trunk is classified UP or QUARANTINE. -/
  | hello (rx : Rx)
  /-- CYCLE_REPORT (R253). A cycle report is received, checked and taken as the partner's cycle number. -/
  | cycleReport (rx : Rx)
  /-- GOP_ANNOUNCE (R260). A global-operation announcement is received, stored in a GOP slot and flooded. -/
  | gopAnnounce (rx : Rx)
  /-- GOP_MARK (R262). A device reaches the first boundary at or after T of a time-scheduled operation and holds its tick. -/
  | gopMark
  /-- AGREEMENT_READY (R256). A device becomes ready for an agreement and sends round 0 on every UP trunk. -/
  | agreementReady
  /-- SYNC (R255). A SYNC round message is received and the next round is sent once every trunk has reported. -/
  | sync (rx : Rx)
  /-- SNAPSHOT_WRITE_COMPLETE (R274). The snapshot write completes, the slot becomes VALID and the tick of cycle C is released. -/
  | snapshotWriteComplete
  /-- STOP_NOTICE (R263). A STOP_NOTICE is received and the device takes its mark for an aligned stop. -/
  | stopNotice (rx : Rx)
  /-- FAULT_NOTICE (R264). A FAULT_NOTICE is received and the device stops FAULTED at its next boundary. -/
  | faultNotice (rx : Rx)
  /-- FREEZE (R266). A FREEZE message is received and the device freezes at its last boundary. -/
  | freeze (rx : Rx)
  /-- STOP_AT (R257). STOP_AT issues a global stop at cycle C. -/
  | stopAt (r : BitVec 5) (p : Packet)
  /-- SNAPSHOT_AT (R272). SNAPSHOT_AT issues a global snapshot at cycle C. -/
  | snapshotAt (r : BitVec 5) (p : Packet)
  /-- RESET_AT (R257). RESET_AT issues a global reset of the cycle number at cycle C. -/
  | resetAt (r : BitVec 5) (p : Packet)
  /-- BROADCAST (R354). BROADCAST issues a message into one inbound queue on every device at cycle C. -/
  | broadcast (r : BitVec 5) (p : Packet)
  /-- BARRIER (R257). BARRIER issues a quiescent agreement at cycle C. -/
  | barrier (r : BitVec 5) (p : Packet)
  /-- SET_EPOCH (R268). SET_EPOCH sets the system epoch. -/
  | setEpoch (r : BitVec 5) (p : Packet)
  /-- SNAP_AREA (R271). SNAP_AREA sets a snapshot slot's areas on each stack. -/
  | snapArea (r : BitVec 5) (p : Packet)
  /-- RESTORE (R275). RESTORE checks a snapshot slot and starts writing its contents back. -/
  | restore (r : BitVec 5) (p : Packet)
  /-- RESTORE_COMPLETE (R275). The restore writes back every content, sets cycle C and leaves the device STOPPED. -/
  | restoreComplete (tagFail : Bool)
  /-- SNAP_INFO (R277). SNAP_INFO returns a slot's validity, cycle, epoch and line needs. -/
  | snapInfo (r : BitVec 5) (p : Packet)
  /-- EXCH (R246). An EXCH flit arrives and is unpacked for this device or forwarded by DEV_ROUTE. -/
  | exch (rx : Rx)
  /-- EXCH_FLIT_CLOSE (R245). An EXCH flit closes on 8 records, 2 ns after its first record or at commit. -/
  | exchFlitClose (dev : BitVec 9)
  /-- MSG (R360). An MSG flit arrives and its record or credit is reassembled, forwarded or delivered. -/
  | msg (rx : Rx)
  /-- FILL (R292). A FILL flit is received and its acknowledgement or NAK is acted on. -/
  | fill (rx : Rx)
  /-- REPLAY_TIMEOUT (R293). ACK_SEQ has not advanced for 4 µs and the transmitter resends. -/
  | replayTimeout (lane : BitVec 7)
  /-- FEC_CODEWORD (R291). An FEC codeword is decoded, corrected or discarded. -/
  | fecCodeword (lane : BitVec 7) (count : BitVec 12) (corrected : Option (BitVec 4)) (stuffErr : Byte)
  /-- TRAIN (R297). A TRAIN flit is received and advances the lane through alignment, configuration and start. -/
  | train (rx : Rx)
  /-- SIGNAL_DETECT (R295). A lane in DETECT detects a signal and moves to EQ. -/
  | signalDetect (lane : BitVec 7)
  /-- EQ_COMPLETE (R295). The receiver adapts and locks its symbol clock, and the lane moves to ALIGN. -/
  | eqComplete (lane : BitVec 7)
  /-- ALIGN_SEARCH_STEP (R298). 64 flit periods pass without alignment and the automatic search steps the offset. -/
  | alignSearchStep (lane : BitVec 7)
  /-- TRAINING_TIMEOUT (R295). A training state times out, the attempt ends and the lane enters BACKOFF. -/
  | trainingTimeout (lane : BitVec 7)
  /-- BACKOFF_EXPIRY (R295). The next training attempt falls due and the lane re-enters DETECT. -/
  | backoffExpiry (lane : BitVec 7)
  /-- TRUNK_START (R299). Enough lanes are READY and the end starts the trunk over the common start set. -/
  | trunkStart (t : BitVec 7)
  /-- TRUNK_START_TIMEOUT (R299). The 1 ms or 2 ms start wait expires and the start proceeds with the lanes in hand. -/
  | trunkStartTimeout (t : BitVec 7)
  /-- LANE_FAIL (R301). A lane of an ACTIVE trunk fails and the trunk enters RECOVERING. -/
  | laneFail (lane : BitVec 7) (noFlit : Bool)
  /-- RECOVER_REQ (R302). A RECOVER_REQ is received and the partner holds its flits and retrains the survivors. -/
  | recoverReq (rx : Rx)
  /-- RESUME (R302). A RESUME is received, flits beyond DELIVERED are resent and the trunk returns to ACTIVE. -/
  | resume (rx : Rx) (duration : BitVec 32)
  /-- LINK_DOWN (R304). No good flit arrives for 6 µs or recovery exceeds 1 ms, and the trunk enters DOWN. -/
  | linkDown (t : BitVec 7)
  /-- LINK_RETRAIN (R307). LINK_RETRAIN restarts training of a trunk's lanes. -/
  | linkRetrain (r : BitVec 5) (p : Packet)
  /-- LINK_SLIP (R307). LINK_SLIP shifts a lane's receiver alignment by COUNT symbols. -/
  | linkSlip (r : BitVec 5) (p : Packet)
  /-- LINK_PRBS (R307). LINK_PRBS sets a lane's PRBS generator, checker and clear. -/
  | linkPrbs (r : BitVec 5) (p : Packet)
  /-- LINK_PRBS_READ (R307). LINK_PRBS_READ returns a lane's PRBS bit and error counts. -/
  | linkPrbsRead (r : BitVec 5) (p : Packet) (bits : BitVec 48) (errs : BitVec 48)
  /-- LINK_REJOIN (R300). LINK_REJOIN re-forms a trunk with every READY lane. -/
  | linkRejoin (r : BitVec 5) (p : Packet)
  /-- PRBS_CLR (R306). Writing 1 to PRBS_CLR clears a lane's PRBS counters. -/
  | prbsClr (lane : BitVec 7)
  /-- RETRY_NOW (R295). Writing 1 to RETRY_NOW starts a training attempt at once. -/
  | retryNow (lane : BitVec 7)
  /-- TIME_SYNC_SEND (R317). The Sync interval expires and the Rooster sends Sync on its child trunks. -/
  | timeSyncSend
  /-- TIME_SYNC (R322). A time Sync is received, the offset is computed and the Sync is forwarded to children. -/
  | timeSync (rx : Rx) (residence : List (BitVec 32))
  /-- PDELAY_INTERVAL (R320). The peer-delay interval expires and PDELAY_REQ is sent. -/
  | pdelayInterval
  /-- PDELAY_REQ (R320). A PDELAY_REQ is received and answered with PDELAY_RESP. -/
  | pdelayReq (rx : Rx) (turnaround : BitVec 32)
  /-- PDELAY_RESP (R320). A PDELAY_RESP is received and the mean path delay is computed. -/
  | pdelayResp (rx : Rx)
  /-- PDELAY_TIMEOUT (R320). A response does not arrive within 10 ms and the previous MPD stands. -/
  | pdelayTimeout (t : BitVec 7)
  /-- LOSS_OF_MASTER (R324). No valid Sync arrives for the limit and the servo enters HOLDOVER. -/
  | lossOfMaster
  /-- ETH_SYNC (R327). A PTP Sync is received on the Ethernet port from the grandmaster. -/
  | ethSync (frame : PtpFrame) (seq : BitVec 16) (twoStep : Bool) (sec : BitVec 48) (ns : BitVec 32) (corr : BitVec 64)
  /-- FOLLOW_UP (R327). A PTP Follow_Up from a two-step grandmaster is received. -/
  | followUp (frame : PtpFrame) (seq : BitVec 16) (sec : BitVec 48) (ns : BitVec 32) (corr : BitVec 64)
  /-- DELAY_REQ (R327). A PTP Delay_Req is received in MASTER and answered. -/
  | delayReq (frame : PtpFrame) (seq : BitVec 16) (requester : BitVec 80)
  /-- DELAY_RESP (R327). A PTP Delay_Resp is received in SLAVE. -/
  | delayResp (frame : PtpFrame) (seq : BitVec 16) (sec : BitVec 48) (ns : BitVec 32) (corr : BitVec 64)
  /-- ANNOUNCE (R327). A PTP Announce is received and recorded. -/
  | announce (frame : PtpFrame) (body : List Byte)
  /-- TIME_GET (R335). TIME_GET returns local time and TSTATE. -/
  | timeGet (r : BitVec 5) (p : Packet)
  /-- TIME_SET (R313). TIME_SET writes an absolute time, subject to the step limit. -/
  | timeSet (r : BitVec 5) (p : Packet)
  /-- TIME_STEP (R313). TIME_STEP adds a signed offset to local time, subject to the step limit. -/
  | timeStep (r : BitVec 5) (p : Packet)
  /-- TIME_RATE (R312). TIME_RATE sets RATE_ADJ when the host owns it. -/
  | timeRate (r : BitVec 5) (p : Packet)
  /-- RATE_ADJ (R312). A write to RATE_ADJ clamps the trim or is refused while the servo owns it. -/
  | rateAdj (v : BitVec 32)
  /-- COMPARATOR_FIRE (R328). An armed comparator reaches its target and fires its action. -/
  | comparatorFire (j : BitVec 3)
  /-- COMPARATOR_WRITE (R329). A write to a comparator's control or target rearms it. -/
  | comparatorWrite (j : BitVec 3) (w : BitVec 3) (v : BitVec 32)
  /-- HALT_INPUT (R333). A filtered halt channel changes level and the monitor latches a stop or times a disagreement. -/
  | haltInput (a : Bool) (b : Bool) (us : BitVec 32)
  /-- HALT_DISCREPANCY (R333). A disagreement lasts HALT_DISC, DISC latches and a stop is requested. -/
  | haltDiscrepancy
  /-- DISC_CLEAR (R334). Writing 1 to DISC clears it only while both channels are deasserted. -/
  | discClear
  /-- DOORBELL (R345). A doorbell write passes PROD or CONS for a queue to the device. -/
  | doorbell (fn : BitVec 5) (q : BitVec 15) (v : Option (BitVec 64))
  /-- HOST_RECORD_FETCH (R346). Fetched inbound records arrive from the host ring, are checked and enter the queue. -/
  | hostRecordFetch (q : BitVec 15) (records : List (BitVec 512)) (uncorr : Bool)
  /-- SPILL_REFILL (R343). A record read from the spill ring refills the burst window. -/
  | spillRefill (q : BitVec 15) (tagFail : Bool)
  /-- OUTBOUND_RECORD_WRITE (R347). The engine writes the oldest outbound record into the host ring when room exists. -/
  | outboundRecordWrite (q : BitVec 15) (uncorr : Bool)
  /-- REMOTE_FORWARD (R359). An outbound record of a REMOTE queue is forwarded in MSG flits while a credit is held. -/
  | remoteForward (q : BitVec 15) (uncorr : Bool)
  /-- FLOW_RELEASE (R358). A member head carrying NEXT is written to the flow's host ring. -/
  | flowRelease (flow : BitVec 9)
  /-- HRING_EN (R348). Writing HRING_EN from 0 to 1 resets the ring indices. -/
  | hringEn (q : BitVec 15)
  /-- EV_TIMER (R366). A queue's event timer expires and the group event is raised. -/
  | evTimer (q : BitVec 15)
  /-- FLR (R341). A Function Level Reset disables the partition's host rings and resets its command ring. -/
  | flr (fn : BitVec 5)
  /-- BAR4_ACCESS (R340). A host access through BAR4 reaches HBM through the inline crypto engine with the function's rights. -/
  | bar4Access (fn : BitVec 5) (off : BitVec 36) (a : Bar4) (err : ReadErrorKind) (stale : Bool)
  /-- QUEUE_GET (R365). QUEUE_GET returns a queue block. -/
  | queueGet (r : BitVec 5) (p : Packet)
  /-- QUEUE_SET (R365). QUEUE_SET writes a queue block. -/
  | queueSet (r : BitVec 5) (p : Packet)
  /-- QUEUE_STATS (R365). QUEUE_STATS returns and clears a queue's counters. -/
  | queueStats (r : BitVec 5) (p : Packet)
  /-- PORT_GET (R365). PORT_GET returns a message port block. -/
  | portGet (r : BitVec 5) (p : Packet)
  /-- FLOW_SET (R365). FLOW_SET writes a flow's configuration and NEXT. -/
  | flowSet (r : BitVec 5) (p : Packet)
  /-- CRC_SET (R363). CRC_SET configures or rebinds a check unit. -/
  | crcSet (r : BitVec 5) (p : Packet)
  /-- DLOG_SET (R365). DLOG_SET configures a partition's delivery log. -/
  | dlogSet (r : BitVec 5) (p : Packet)
  /-- ACQ_CTRL_ARM (R373). Writing 1 to ACQ_CTRL.ARM arms the acquisition for the next boundary. -/
  | acqCtrlArm
  /-- ACQ_CTRL_ARM_AT (R373). Writing 1 to ACQ_CTRL.ARM_AT arms the acquisition for ARM_CYCLE. -/
  | acqCtrlArmAt
  /-- ACQ_CTRL_DISARM (R372). Writing 1 to ACQ_CTRL.DISARM returns the acquisition to IDLE. -/
  | acqCtrlDisarm
  /-- ACQ_CTRL_FORCE (R377). Writing 1 to ACQ_CTRL.FORCE forces the trigger at the next commit. -/
  | acqCtrlForce
  /-- AUTO_TRIGGER (R377). ACQ_AUTO cycles pass without a trigger and the trigger is forced. -/
  | autoTrigger
  /-- ACQ_ARM (R373). ACQ_ARM arms the acquisition at the next boundary, at a cycle or on a comparator. -/
  | acqArm (r : BitVec 5) (p : Packet)
  /-- ACQ_DISARM (R393). ACQ_DISARM returns the acquisition to IDLE. -/
  | acqDisarm (r : BitVec 5) (p : Packet)
  /-- ACQ_FORCE (R393). ACQ_FORCE forces the trigger while ARMED. -/
  | acqForce (r : BitVec 5) (p : Packet)
  /-- ACQ_STATUS (R393). ACQ_STATUS returns the acquisition state and indices. -/
  | acqStatus (r : BitVec 5) (p : Packet)
  /-- CAP_MAP_READ (R393). CAP_MAP_READ writes capture-map entries with physical positions to host memory. -/
  | capMapRead (r : BitVec 5) (p : Packet)
  /-- TRC_ENABLE (R393). TRC_ENABLE enables trace with a TRC_CTRL value. -/
  | trcEnable (r : BitVec 5) (p : Packet)
  /-- TRC_DISABLE (R393). TRC_DISABLE disables trace once the funnel has drained. -/
  | trcDisable (r : BitVec 5) (p : Packet)
  /-- TRC_OVERFLOW (R388). A source FIFO regains room after losses and the funnel writes OVERFLOW and a sync point. -/
  | trcOverflow
  /-- SYNC_POINT (R391). The output count reaches the sync period and the funnel writes a sync point. -/
  | syncPoint
  /-- SCRUB (R403). The scrubber pass over the fabric configuration falls due and corrects or reports errors. -/
  | scrub (corrected : Bool) (uncorrectable : Bool)
  /-- MUX_FORCED (R406). The old clock shows no edge for 1 ms and the multiplexer switches anyway. -/
  | muxForced (clk : BitVec 6)
  /-- TOUT_TRANSFER (R407). A committed set of outbound target bits reaches the fabric side on TB_CLK. -/
  | toutTransfer
  /-- TIN_COMMIT (R408). The written copy of inbound target bits is frozen and the pointer flips to the step domain. -/
  | tinCommit
  /-- TAF_OUTPUTS (R413). TAF_OUTPUTS sets or clears FAB_OE and FB_OE. -/
  | tafOutputs (r : BitVec 5) (p : Packet)
  /-- TAF_STATUS (R416). TAF_STATUS returns the fabric status and target-bit counters. -/
  | tafStatus (r : BitVec 5) (p : Packet)
  /-- TAF_CLKSEL (R406). TAF_CLKSEL switches a region multiplexer without a glitch. -/
  | tafClksel (r : BitVec 5) (p : Packet)
  /-- TAF_CLKCFG (R406). TAF_CLKCFG reprograms an unselected region divider. -/
  | tafClkcfg (r : BitVec 5) (p : Packet)
  /-- TAF_FIFO_STATS (R416). TAF_FIFO_STATS returns a FIFO's counters. -/
  | tafFifoStats (r : BitVec 5) (p : Packet)
  /-- FALLBACK_DATA_WRITE (R417). A write to a fall-back block's DATA queues a byte for transmission. -/
  | fallbackDataWrite (k : BitVec 3) (v : Byte)
  /-- FALLBACK_DATA_READ (R417). A read of a fall-back block's DATA pops a received byte. -/
  | fallbackDataRead (k : BitVec 3)
  /-- FALLBACK_RX_BYTE (R415). A fall-back block receives a byte, or drops and counts it when its FIFO is full. -/
  | fallbackRxByte (k : BitVec 3) (b : Byte) (nak : Bool)
  /-- PART_TILE_SET (R419). PART_TILE_SET assigns a tile to a partition. -/
  | partTileSet (r : BitVec 5) (p : Packet)
  /-- PART_REGION_SET (R419). PART_REGION_SET sets a partition's HBM region on a stack. -/
  | partRegionSet (r : BitVec 5) (p : Packet)
  /-- SET_RIGHTS (R440). SET_RIGHTS writes a rights row and advances the rights epoch. -/
  | setRights (r : BitVec 5) (p : Packet)
  /-- RIGHTS_DRAIN (R440). Requests of the old epoch drain or are aborted at 100 µs, and SET_RIGHTS replies. -/
  | rightsDrain
  /-- KEY_INSTALL (R429). KEY_INSTALL installs a plain or wrapped image root key in a slot. -/
  | keyInstall (r : BitVec 5) (p : Packet)
  /-- KEY_ERASE (R448). KEY_ERASE empties a key slot. -/
  | keyErase (r : BitVec 5) (p : Packet)
  /-- SEAL_KEY_SET (R430). SEAL_KEY_SET registers a partition's signing key. -/
  | sealKeySet (r : BitVec 5) (p : Packet)
  /-- REKEY (R442). REKEY starts replacing a partition's working keys on one stack. -/
  | rekey (r : BitVec 5) (p : Packet)
  /-- REKEY_LINE (R442). The re-keying engine rewrites the line at the boundary under the new keys and advances it. -/
  | rekeyLine (stack : BitVec 2) (tagFail : Bool)
  /-- SNAP_EXPORT (R445). SNAP_EXPORT copies a stack's part of a snapshot slot to host memory. -/
  | snapExport (r : BitVec 5) (p : Packet)
  /-- SNAP_IMPORT (R446). SNAP_IMPORT writes an exported copy back and validates the slot descriptor. -/
  | snapImport (r : BitVec 5) (p : Packet)
  /-- DIK_GET (R429). DIK_GET returns the device identity public key. -/
  | dikGet (r : BitVec 5) (p : Packet)
  /-- ALARM_CLEAR (R449). Writing 1 to SEC_STATUS.ALARM clears the alarm and its log. -/
  | alarmClear
  /-- SQ_PROD (R452). A write to SQ_PROD passes new command packets to the device. -/
  | sqProd (r : BitVec 5) (v : BitVec 32) (unknown : List (BitVec 16 × Packet))
  /-- CQ_CONS (R453). A write to CQ_CONS frees completion slots and releases held replies. -/
  | cqCons (r : BitVec 5) (v : BitVec 32)
  /-- CR_EN (R453). A write of CR_CTRL.EN starts or ends service of a command ring. -/
  | crEn (r : BitVec 5) (en : Bool)
  /-- BLOCK_WRITE (R461). An SMBus Block Write delivers a packet fragment. -/
  | blockWrite (block : List Byte) (pec : Bool)
  /-- BLOCK_READ (R461). An SMBus Block Read returns a reply fragment. -/
  | blockRead
  /-- COMMAND_DATAGRAM (R462). A UDP command datagram is authenticated and executed, answered again or dropped. -/
  | commandDatagram (datagram : List Byte)
  /-- ID_GET (R464). ID_GET returns the device identity. -/
  | idGet (r : BitVec 5) (p : Packet)
  /-- CLUSTER_MAP_GET (R464). CLUSTER_MAP_GET returns 64 bytes of the enabled-cluster map. -/
  | clusterMapGet (r : BitVec 5) (p : Packet)
  /-- FAULT_GET (R464). FAULT_GET returns the fault record and overflow count. -/
  | faultGet (r : BitVec 5) (p : Packet)
  /-- MGMT_KEY_SET (R464). MGMT_KEY_SET sets and commits the management key. -/
  | mgmtKeySet (r : BitVec 5) (p : Packet)
  /-- ECHO (R464). ECHO returns its parameter bytes. -/
  | echo (r : BitVec 5) (p : Packet)
  /-- POWER_SET (R506). POWER_SET moves the device between STANDBY and IDLE. -/
  | powerSet (r : BitVec 5) (p : Packet)
  /-- DEVICE_RESET (R465). DEVICE_RESET resets the device, a die or a tile. -/
  | deviceReset (r : BitVec 5) (p : Packet)
  /-- DEVICE_RESET_BEGIN (R510). 10 µs after the OK reply of a device-level DEVICE_RESET the reset is taken. -/
  | deviceResetBegin
  /-- FENCE (R483). FENCE starts a fence of a die or tile. -/
  | fence (r : BitVec 5) (p : Packet)
  /-- FENCE_ACK (R483). Nothing remains outstanding at the stop, which returns FENCE_ACK and switches to bypass. -/
  | fenceAck (die : Bool) (index : BitVec 7)
  /-- FENCE_FORCED (R483). The drain limit passes and the fence is forced. -/
  | fenceForced (die : Bool) (index : BitVec 7) (tags : List (BitVec 14 × BitVec 2))
  /-- STEP_CLOCK_SET (R465). STEP_CLOCK_SET requests a new step clock at the next boundary. -/
  | stepClockSet (r : BitVec 5) (p : Packet)
  /-- POWER_STATUS (R465). POWER_STATUS returns temperatures, power, clock and state. -/
  | powerStatus (r : BitVec 5) (p : Packet)
  /-- RUN (R466). RUN writes RUN_COUNT and requests RUNNING. -/
  | run (r : BitVec 5) (p : Packet)
  /-- STOP (R466). STOP requests a stop and replies with the stop cycle. -/
  | stop (r : BitVec 5) (p : Packet)
  /-- RUN_STATUS (R466). RUN_STATUS returns the sequencing status. -/
  | runStatus (r : BitVec 5) (p : Packet)
  /-- SEQ_SET (R466). SEQ_SET writes the sequencing registers. -/
  | seqSet (r : BitVec 5) (p : Packet)
  /-- PEEK (R468). PEEK reads slots, full bits, state bits or a model memory word. -/
  | peek (r : BitVec 5) (p : Packet) (err : ReadErrorKind)
  /-- DEPOSIT (R469). DEPOSIT writes state bits or a model memory word, held to the commit while running. -/
  | deposit (r : BitVec 5) (p : Packet) (err : ReadErrorKind)
  /-- FORCE (R470). FORCE patches every writer of the listed slots to a constant as one group. -/
  | force (r : BitVec 5) (p : Packet)
  /-- RELEASE (R470). RELEASE restores the original words of forced writers as one group. -/
  | release (r : BitVec 5) (p : Packet)
  /-- FORCE_LIST (R470). FORCE_LIST returns the forced slots of a partition. -/
  | forceList (r : BitVec 5) (p : Packet)
  /-- MEM_TEST (R473). MEM_TEST tests and clears a tile's arrays. -/
  | memTest (r : BitVec 5) (p : Packet)
  /-- ERR_INJECT (R473). ERR_INJECT alters a stored instruction word or model memory row. -/
  | errInject (r : BitVec 5) (p : Packet)
  /-- MISCOMPARE (R476). A lockstep miscompare blocks the active pair and the standby pair takes over. -/
  | miscompare (tags : List (BitVec 14 × BitVec 2))
  /-- RING_TIMEOUT (R481). An initiator's timer expires, a TIMEOUT completion is synthesised and the tag is quarantined. -/
  | ringTimeout (who : BitVec 2) (tag : BitVec 14) (gen : BitVec 2) (cmd : Option (BitVec 5 × BitVec 16))
  /-- LATE_COMPLETION (R482). A completion for a quarantined tag or stale generation arrives and is discarded. -/
  | lateCompletion (tag : BitVec 14) (gen : BitVec 2)
  /-- QUARANTINE_EXPIRY (R482). Four timeout periods pass and a quarantined tag is freed. -/
  | quarantineExpiry (tag : BitVec 14)
  /-- WDOG_KICK (R478). A Mule write to WDOG_KICK restarts the watchdog count. -/
  | wdogKick
  /-- WDOG_WARN (R478). Half the watchdog period passes without a kick and WDOG_WARN is raised. -/
  | wdogWarn
  /-- WATCHDOG (R516). The watchdog count reaches 0, the step clock stops and the WATCHDOG fault is recorded. -/
  | watchdog
  /-- WATCHDOG_RESET (R516). 100 µs after the watchdog expires the device takes a reset with cause WDOG. -/
  | watchdogReset
  /-- SP_OWNER (R485). A write to SP_OWNER hands a scratchpad bank to a new owner. -/
  | spOwner (bank : BitVec 6) (who : BitVec 2) (owner : BitVec 2)
  /-- OWNER_HANDOVER (R485). The old owner's accesses complete, PENDING clears and the new owner is served. -/
  | ownerHandover (bank : BitVec 6)
  /-- SCRATCHPAD_ACCESS (R484). An access to a scratchpad bank is served for its owner or refused and counted. -/
  | scratchpadAccess (a : SpAccess) (err : ReadErrorKind) (used : Bool)
  /-- SET_ALIAS_WRITE (R486). A write to a set alias ORs the value into the word atomically. -/
  | setAliasWrite (a : SpAccess)
  /-- CLEAR_ALIAS_WRITE (R486). A write to a clear alias clears the value's bits in the word atomically. -/
  | clearAliasWrite (a : SpAccess)
  /-- EV_PEND_CLEAR (R491). Writing 1 to an event or queue pending bit clears it. -/
  | evPendClear (fn : BitVec 5) (queue : Bool) (w : BitVec 10) (v : BitVec 32)
  /-- EV_ROUTE (R492). A write to EV_ROUTE routes an event source, or is refused for a foreign VF vector. -/
  | evRoute (src : BitVec 12) (v : BitVec 32)
  /-- UART_CHARACTER (R495). The console receives a character, or counts a framing error or overrun. -/
  | uartCharacter (c : Byte) (stop : Bool) (read : BitVec 7)
  /-- UART_BREAK (R495). The line stays low for more than 20 bit times and BREAK is counted. -/
  | uartBreak
  /-- RAIL_GOOD (R503). A rail stays above 90% of nominal for 100 µs and becomes good. -/
  | railGood (rail : BitVec 5) (volt : BitVec 2)
  /-- RAIL_LOSS (R504). A rail falls below 85% and a required one causes a reset. -/
  | railLoss (rail : BitVec 5)
  /-- STRAP_LATCH (R515). 1 ms after VSTBY is good the straps are latched and the always-on blocks start. -/
  | strapLatch (cfg : BitVec 3)
  /-- BOOT_COPY (R237). The boot ROM copies the firmware bank, option words and default personality from NV memory. -/
  | bootCopy (stage : BitVec 2) (passA : Bool) (passB : Bool) (ownerKey : List Byte)
  /-- BRING_UP_COMPLETE (R515). The bring-up order ends and the device enters its boot power state. -/
  | bringUpComplete
  /-- RESET_N (R511). RESET_N is held low longer than the filter and a device reset is taken. -/
  | resetN (ns : BitVec 32)
  /-- RESET_RELEASE (R515). A device reset's hold ends and the bring-up order resumes. -/
  | resetRelease
  /-- BLOCK_RESET_COMPLETE (R518). A die or tile reset completes and its stop releases its fence. -/
  | blockResetComplete (die : Bool) (index : BitVec 7)
  /-- PERST_N (R510). PCIe conventional reset resets the PCIe block and acts as an FLR of every function. -/
  | perstN
  /-- REFCLK_LOSS (R531). A reference clock is lost and its dependent blocks fail as the rule gives. -/
  | refclkLoss (clk : BitVec 4)
  /-- AVS_WRITE_ACK (R505). A regulator acknowledges a voltage write and the frequency change proceeds. -/
  | avsWriteAck (die : BitVec 2)
  /-- AVS_TIMEOUT (R505). A regulator fails to acknowledge within 5 ms, AVS_ERR is set and the frequency stays. -/
  | avsTimeout (die : BitVec 2)
  /-- THERMAL_SAMPLE (R519). The junction sensors are sampled and throttling starts when one reaches T_THROT. -/
  | thermalSample (t0 : BitVec 16) (t1 : BitVec 16) (t2 : BitVec 16) (t3 : BitVec 16) (t4 : BitVec 16)
  /-- THROTTLE_STEP_DOWN (R519). A 1 ms throttling interval ends with a hot sample and LIMIT falls by 50 MHz. -/
  | throttleStepDown
  /-- THROTTLE_STEP_UP (R519). 10 ms pass below T_THROT minus 3 °C and LIMIT rises by 50 MHz. -/
  | throttleStepUp
  /-- REFCLK_RETURN (R531). A reference clock that was absent or lost returns, so a bring-up held at step 3 or a link, port or lane that depends on it can proceed. -/
  | refclkReturn (clk : BitVec 4)
  /-- PRBS_CHECKER_LOCK (R306). The PRBS checker sees 64 consecutive error-free bits, locks and starts counting PRBS_BITS and PRBS_ERR. -/
  | prbsCheckerLock (b : PrbsBits)
  /-- PRBS_LOCK_LOSS (R306). More than 1,000 errors within 10,000 bits clear the checker's lock, and it reseeds and stops counting. -/
  | prbsLockLoss (lane : BitVec 7) (bits : BitVec 48) (errs : BitVec 48)
  /-- FABRIC_CLOCK_EDGE (R397). A region clock edge clocks the fabric's flip-flops, block memory ports and the fabric side of the asynchronous FIFOs (WE, RE, OVERFLOW). -/
  | fabricClockEdge (edges : List (BitVec 4 × Bool)) (mhz : BitVec 16)
  /-- TARGET_PIN_INPUT (R399). A TIO or LVDS input from the target changes level and propagates through the fabric's global lines and cells. -/
  | targetPinInput (pin : BitVec 10) (level : Bool)
  /-- ETH_SYNC_SEND (R327). In the MASTER role the Ethernet port sends one-step Sync and Announce to outside equipment. -/
  | ethSyncSend
  /-- ETH_DELAY_REQ_SEND (R327). In the SLAVE role the Ethernet port sends Delay_Req for the end-to-end delay measurement. -/
  | ethDelayReqSend
  /-- SNAP_EXPORT_COMPLETE (R445). The copy of a slot's lines and tags to host memory completes and SNAP_EXPORT sends its final OK with LINES. -/
  | snapExportComplete
  /-- SNAP_IMPORT_COMPLETE (R446). The import of a stack's copy completes and, after the last stack, the descriptor is checked and the slot becomes VALID or INVALID. -/
  | snapImportComplete (copy : List Byte) (tagFail : Bool)
  /-- MEM_TEST_COMPLETE (R473). The memory test of a tile ends, its arrays are left cleared and MEM_TEST replies OK with ERRORS and FIRST_ADDR. -/
  | memTestComplete (tile : BitVec 7) (errors : BitVec 32) (first : BitVec 64)
  /-- OPT_COMMIT_COMPLETE (R239). Programming and read-back of the option sector end, with OK or with TIMEOUT and OPT_DEFAULT set. -/
  | optCommitComplete (readBack : Bool)
  /-- TRACE_DRAIN_COMPLETE (R393). The trace funnel has drained to its sink and TRC_DISABLE sends its OK. -/
  | traceDrainComplete
  /-- MUX_SWITCH_COMPLETE (R406). A region multiplexer sees the second falling edge of the new clock, follows it, and TAF_CLKSEL replies OK. -/
  | muxSwitchComplete (clk : BitVec 6)
  /-- MULE_SWITCHOVER_COMPLETE (R476). The standby pair becomes ACTIVE, clears SWITCHING, services the watchdog and resumes commands from the journal. -/
  | muleSwitchoverComplete (us : BitVec 32)
  /-- MULE_SELFTEST_COMPLETE (R476). The failed lockstep pair finishes its self-test and becomes STANDBY or DISABLED. -/
  | muleSelftestComplete (pass : Bool)
  /-- BRIDGE_RETRAIN (R111). An error on a die-bridge module starts a retrain that holds the module's exchange traffic. -/
  | bridgeRetrain (m : BitVec 7)
  /-- BRIDGE_RETRAIN_COMPLETE (R111). A bridge module finishes retraining within 20 µs and its held exchange traffic resumes. -/
  | bridgeRetrainComplete (m : BitVec 7)
  /-- GOP_SLOT_READ (R278). A host read of a GOP_SLOT in state 3 returns it and frees the slot. -/
  | gopSlotRead (slot : BitVec 4)
  /-- FLIT_CRC_FAIL (R287). A received flit fails its CRC, is discarded and counted, and the receiver discards until the expected SEQ and sets NAK. -/
  | flitCrcFail (b : LineBlock)
  /-- HOST_LINK_DMA_ERROR (R454). A fetch or write of a command ring, queue ring or image stream fails on the host link, setting DMA_ERR and clearing EN, or ending a load with TIMEOUT. -/
  | hostLinkDmaError (target : DmaTarget)
  /-- PERST_N_RELEASE (R515). PERST_N deasserts and the PCIe link answers configuration requests 20 ms after the later of that and the hub rails becoming good. -/
  | perstNRelease
  /-- JTAG_INSTRUCTION (R527). A new TAP instruction takes effect, such as EXTEST, HIGHZ or CLAMP taking over the scanned pins, or DEBUG opening debug access. -/
  | jtagInstruction (ir : Byte)
deriving DecidableEq, Repr

end Sys2Proof
end

