-- ==== Sys2Proof/Decode.lean ====
section
/-!
DEFINITION. The command that a word spells by the opcode table's bits. The table gives no row any bits: commands come
from outside the device and are no words of a program store.
-/
namespace Sys2Proof

/-- The command spelled by a word: none, since no row of the opcode table has bits. -/
def decodeTableWord (_nbits _w : Nat) : Option Instr := none

end Sys2Proof
end

