-- ==== Sys2Proof/Machine/Map.lean ====
section
/-!
DEFINITION. The operations of the sparse tables and memories: every field of the state that is a table or a
memory is read and written through these and nothing else.
-/
namespace Sys2Proof

/-- The entry of number `k`, or `d` where none is listed. -/
def mget {α : Type} (m : Map α) (d : α) (k : Nat) : α :=
  match m with
  | [] => d
  | (j, v) :: r => if j = k then v else mget r d k

/-- The table without number `k`. -/
def mdel {α : Type} (m : Map α) (k : Nat) : Map α :=
  match m with
  | [] => []
  | (j, v) :: r => if j = k then mdel r k else (j, v) :: mdel r k

/-- Insert an entry before the first larger number. -/
def mins {α : Type} (m : Map α) (k : Nat) (v : α) : Map α :=
  match m with
  | [] => [(k, v)]
  | (j, w) :: r => if k < j then (k, v) :: (j, w) :: r else (j, w) :: mins r k v

/-- Set number `k` to `v`; a value equal to the unlisted one takes the entry out. -/
def mset {α : Type} [DecidableEq α] (m : Map α) (d : α) (k : Nat) (v : α) : Map α :=
  if v = d then mdel m k else mins (mdel m k) k v

/-- Canonical form: numbers strictly rising, no entry equal to the unlisted value. -/
def Map.wf {α : Type} [DecidableEq α] (d : α) : Map α → Bool
  | [] => true
  | [(_, v)] => decide (v ≠ d)
  | (j, v) :: (k, w) :: r => decide (v ≠ d) && decide (j < k) && Map.wf d ((k, w) :: r)

/-- The numbers rise strictly (the form of a table whose unlisted values differ by number). -/
def Map.sorted {α : Type} : Map α → Bool
  | [] => true
  | [_] => true
  | (j, _) :: (k, w) :: r => decide (j < k) && Map.sorted ((k, w) :: r)

/-- Every entry whose number satisfies `p` is taken out. -/
def mdrop {α : Type} (m : Map α) (p : Nat → Bool) : Map α := m.filter (fun e => !p e.1)

/-- Insert a number into a rising list, and sort a list of numbers. -/
def insertNat (x : Nat) : List Nat → List Nat
  | [] => [x]
  | y :: r => if x ≤ y then x :: y :: r else y :: insertNat x r

def sortNat : List Nat → List Nat
  | [] => []
  | x :: r => insertNat x (sortNat r)

/-- Set numbers `k`, `k+1`, ... to the listed values. -/
def msetMany {α : Type} [DecidableEq α] (m : Map α) (d : α) (k : Nat) : List α → Map α
  | [] => m
  | v :: r => msetMany (mset m d k v) d (k + 1) r

/-- The canonical form of a list of entries, the later ones in place of the earlier. -/
def mnorm {α : Type} [DecidableEq α] (d : α) (m : Map α) : Map α := m.foldl (fun a e => mset a d e.1 e.2) []

/-! ## Memories of bytes, read as `0` where nothing is listed -/

/-- The canonical form of a memory whose unlisted bytes read 0. -/
def Memory.wf (m : Memory) : Bool := Map.wf (0 : Byte) m

/-- One byte of a memory. -/
def rdByte (m : Memory) (a : Nat) : Byte := mget m 0 a

/-- Write one byte. -/
def wrByte (m : Memory) (a : Nat) (b : Byte) : Memory := mset m 0 a b

/-- `n` bytes from address `a`, little-endian (R15). -/
def rdBytes (m : Memory) (a : Nat) : Nat → Nat
  | 0 => 0
  | n + 1 => (rdByte m a).toNat + 256 * rdBytes m (a + 1) n

/-- Write the low `n` bytes of `v` at address `a`, little-endian. -/
def wrBytes (m : Memory) (a : Nat) : Nat → Nat → Memory
  | 0, _ => m
  | n + 1, v => wrBytes (wrByte m a (BitVec.ofNat 8 v)) (a + 1) n (v / 256)

/-- Bit `i` of a memory read as one string of bits (bit i mod 8 of byte i div 8). -/
def rdBit (m : Memory) (i : Nat) : Bool := (rdByte m (i / 8)).getLsbD (i % 8)

/-- Write bit `i` of a memory. -/
def wrBit (m : Memory) (i : Nat) (b : Bool) : Memory :=
  let o := (rdByte m (i / 8)).toNat
  let p := 2 ^ (i % 8)
  let cleared := if (o / p) % 2 = 1 then o - p else o
  wrByte m (i / 8) (BitVec.ofNat 8 (if b then cleared + p else cleared))

/-- `n` bits from bit `i`. -/
def rdBits (m : Memory) (i : Nat) : Nat → Nat
  | 0 => 0
  | n + 1 => (rdBit m i).toNat + 2 * rdBits m (i + 1) n

/-- Write the low `n` bits of `v` from bit `i` on. -/
def wrBits (m : Memory) (i : Nat) : Nat → Nat → Memory
  | 0, _ => m
  | n + 1, v => wrBits (wrBit m i (v % 2 = 1)) (i + 1) n (v / 2)

/-- Write a list of bytes from address `a`. -/
def wrList (m : Memory) (a : Nat) : List Byte → Memory
  | [] => m
  | b :: r => wrList (wrByte m a b) (a + 1) r

/-- A list of `n` bytes from address `a`. -/
def rdList (m : Memory) (a : Nat) : Nat → List Byte
  | 0 => []
  | n + 1 => rdByte m a :: rdList m (a + 1) n

/-- The memory with the `n` bytes from `a` reading 0. -/
def zeroBytes (m : Memory) (a n : Nat) : Memory := mdrop m (fun k => decide (a ≤ k) && decide (k < a + n))

/-! ## Numbers as bit fields -/

/-- Bits [lo + w - 1 : lo] of a number. -/
def bitsOf (v lo w : Nat) : Nat := (v / 2 ^ lo) % 2 ^ w

/-- Bit `i` of a number. -/
def bitOf (v i : Nat) : Bool := (v / 2 ^ i) % 2 = 1

/-- The little-endian number of a list of bytes (R15). -/
def leNat : List Byte → Nat
  | [] => 0
  | b :: r => b.toNat + 256 * leNat r

/-- The low `n` bytes of a number, little-endian. -/
def leBytes : Nat → Nat → List Byte
  | 0, _ => []
  | n + 1, v => BitVec.ofNat 8 v :: leBytes n (v / 256)

/-- Bytes `off .. off + n - 1` of a byte list as a little-endian number. -/
def fieldAt (bs : List Byte) (off n : Nat) : Nat := leNat ((bs.drop off).take n)

/-- The signed value of the low `w` bits. -/
def signedOf (w v : Nat) : Int :=
  let x := v % 2 ^ w
  if x < 2 ^ (w - 1) then (x : Int) else (x : Int) - (2 ^ w : Int)

/-- The `w`-bit pattern of an integer. -/
def patternOf (w : Nat) (v : Int) : Nat := (v % (2 ^ w : Int)).toNat

end Sys2Proof
end

