-- ==== Sys2Proof/Machine/Crypto.lean ====
section
/-!
DEFINITION. The cryptographic functions that the manual takes from other standards (R215 to R218, R429 to R433, R462): SHA-384
(FIPS 180-4) and HMAC-SHA-384 (FIPS 198-1), AES-256 (FIPS 197) with GCM and GMAC (SP 800-38D) and with XTS (IEEE Std 1619), ECDSA
and ECDH over P-384 (FIPS 186-5, SP 800-56A). A byte string is the list of its bytes, the first one first.
-/
namespace Sys2Proof.Crypto
open Sys2Proof

/-! ## Numbers -/

/-- The number of a byte string, most significant byte first. -/
def beNat (l : List Byte) : Nat := l.foldl (fun n b => n * 256 + b.toNat) 0

/-- A number as `n` bytes, most significant byte first. -/
def beBytes (n v : Nat) : List Byte := (leBytes n v).reverse

/-- Two lists of numbers combined place by place. -/
def xorList : List Nat → List Nat → List Nat
  | x :: r, y :: t => (x ^^^ y) :: xorList r t
  | _, _ => []

/-- Bytes as numbers, and back. -/
def nats (l : List Byte) : List Nat := l.map BitVec.toNat
def bytes (l : List Nat) : List Byte := l.map (BitVec.ofNat 8)

/-! ## SHA-384 and HMAC-SHA-384 -/

/-- Round constants 0 to 19. -/
def shaK0 : List Nat :=
  [0x428A2F98D728AE22, 0x7137449123EF65CD, 0xB5C0FBCFEC4D3B2F, 0xE9B5DBA58189DBBC,
   0x3956C25BF348B538, 0x59F111F1B605D019, 0x923F82A4AF194F9B, 0xAB1C5ED5DA6D8118,
   0xD807AA98A3030242, 0x12835B0145706FBE, 0x243185BE4EE4B28C, 0x550C7DC3D5FFB4E2,
   0x72BE5D74F27B896F, 0x80DEB1FE3B1696B1, 0x9BDC06A725C71235, 0xC19BF174CF692694,
   0xE49B69C19EF14AD2, 0xEFBE4786384F25E3, 0x0FC19DC68B8CD5B5, 0x240CA1CC77AC9C65]

/-- Round constants 20 to 39. -/
def shaK1 : List Nat :=
  [0x2DE92C6F592B0275, 0x4A7484AA6EA6E483, 0x5CB0A9DCBD41FBD4, 0x76F988DA831153B5,
   0x983E5152EE66DFAB, 0xA831C66D2DB43210, 0xB00327C898FB213F, 0xBF597FC7BEEF0EE4,
   0xC6E00BF33DA88FC2, 0xD5A79147930AA725, 0x06CA6351E003826F, 0x142929670A0E6E70,
   0x27B70A8546D22FFC, 0x2E1B21385C26C926, 0x4D2C6DFC5AC42AED, 0x53380D139D95B3DF,
   0x650A73548BAF63DE, 0x766A0ABB3C77B2A8, 0x81C2C92E47EDAEE6, 0x92722C851482353B]

/-- Round constants 40 to 59. -/
def shaK2 : List Nat :=
  [0xA2BFE8A14CF10364, 0xA81A664BBC423001, 0xC24B8B70D0F89791, 0xC76C51A30654BE30,
   0xD192E819D6EF5218, 0xD69906245565A910, 0xF40E35855771202A, 0x106AA07032BBD1B8,
   0x19A4C116B8D2D0C8, 0x1E376C085141AB53, 0x2748774CDF8EEB99, 0x34B0BCB5E19B48A8,
   0x391C0CB3C5C95A63, 0x4ED8AA4AE3418ACB, 0x5B9CCA4F7763E373, 0x682E6FF3D6B2B8A3,
   0x748F82EE5DEFB2FC, 0x78A5636F43172F60, 0x84C87814A1F0AB72, 0x8CC702081A6439EC]

/-- Round constants 60 to 79. -/
def shaK3 : List Nat :=
  [0x90BEFFFA23631E28, 0xA4506CEBDE82BDE9, 0xBEF9A3F7B2C67915, 0xC67178F2E372532B,
   0xCA273ECEEA26619C, 0xD186B8C721C0C207, 0xEADA7DD6CDE0EB1E, 0xF57D4F7FEE6ED178,
   0x06F067AA72176FBA, 0x0A637DC5A2C898A6, 0x113F9804BEF90DAE, 0x1B710B35131C471B,
   0x28DB77F523047D84, 0x32CAAB7B40C72493, 0x3C9EBE0A15C9BEBC, 0x431D67C49C100D4C,
   0x4CC5D4BECB3E42B6, 0x597F299CFC657E2A, 0x5FCB6FAB3AD6FAEC, 0x6C44198C4A475817]

/-- The round constants of SHA-384. -/
def shaK : List Nat := shaK0 ++ shaK1 ++ shaK2 ++ shaK3

/-- Rotation of a 64-bit word to the right. -/
def rotr (n x : Nat) : Nat := (x >>> n ||| x <<< (64 - n)) % 2 ^ 64

/-- The functions of the message schedule and of a round. -/
def shaLow0 (x : Nat) : Nat := rotr 1 x ^^^ rotr 8 x ^^^ x >>> 7
def shaLow1 (x : Nat) : Nat := rotr 19 x ^^^ rotr 61 x ^^^ x >>> 6
def shaUp0 (x : Nat) : Nat := rotr 28 x ^^^ rotr 34 x ^^^ rotr 39 x
def shaUp1 (x : Nat) : Nat := rotr 14 x ^^^ rotr 18 x ^^^ rotr 41 x

/-- The working variables. -/
structure Sha where
  a : Nat
  b : Nat
  c : Nat
  d : Nat
  e : Nat
  f : Nat
  g : Nat
  h : Nat
deriving DecidableEq, Repr

/-- The initial hash value of SHA-384. -/
def shaStart : Sha :=
  ⟨0xCBBB9D5DC1059ED8, 0x629A292A367CD507, 0x9159015A3070DD17, 0x152FECD8F70E5939,
    0x67332667FFC00B31, 0x8EB44A8768581511, 0xDB0C2E0D64F98FA7, 0x47B5481DBEFA4FA4⟩

/-- `n` more words of the schedule, newest first. -/
def shaWords : Nat → List Nat → List Nat
  | 0, l => l
  | n + 1, l => shaWords n ((shaLow1 (l.getD 1 0) + l.getD 6 0 + shaLow0 (l.getD 14 0) + l.getD 15 0) % 2 ^ 64 :: l)

/-- One round with its constant and its word. -/
def shaRound (v : Sha) (k w : Nat) : Sha :=
  let ch := (v.e &&& v.f) ^^^ ((2 ^ 64 - 1 - v.e) &&& v.g)
  let maj := (v.a &&& v.b) ^^^ (v.a &&& v.c) ^^^ (v.b &&& v.c)
  let t := v.h + shaUp1 v.e + ch + k + w
  ⟨(t + shaUp0 v.a + maj) % 2 ^ 64, v.a, v.b, v.c, (v.d + t) % 2 ^ 64, v.e, v.f, v.g⟩

def shaRounds : List Nat → List Nat → Sha → Sha
  | k :: ks, w :: ws, v => shaRounds ks ws (shaRound v k w)
  | _, _, v => v

/-- One block of 128 bytes. -/
def shaBlock (v : Sha) (block : List Byte) : Sha :=
  let first := (List.range 16).map (fun i => beNat ((block.drop (8 * i)).take 8))
  let u := shaRounds shaK (shaWords 64 first.reverse).reverse v
  let add := fun (x y : Nat) => (x + y) % 2 ^ 64
  ⟨add v.a u.a, add v.b u.b, add v.c u.c, add v.d u.d, add v.e u.e, add v.f u.f, add v.g u.g, add v.h u.h⟩

def shaBlocks : Nat → List Byte → Sha → Sha
  | 0, _, v => v
  | n + 1, l, v => shaBlocks n (l.drop 128) (shaBlock v (l.take 128))

/-- The message with its padding. -/
def shaPad (m : List Byte) : List Byte :=
  m ++ [0x80] ++ List.replicate ((239 - m.length % 128) % 128) 0 ++ beBytes 16 (8 * m.length)

/-- SHA-384: 48 bytes. -/
def sha384 (m : List Byte) : List Byte :=
  let p := shaPad m
  let v := shaBlocks (p.length / 128) p shaStart
  [v.a, v.b, v.c, v.d, v.e, v.f].flatMap (beBytes 8)

/-- HMAC-SHA-384: 48 bytes. -/
def hmac (key m : List Byte) : List Byte :=
  let k := if 128 < key.length then sha384 key else key
  let pad := fun (c : Byte) => (k ++ List.replicate (128 - k.length) 0).map (· ^^^ c)
  sha384 (pad 0x5C ++ sha384 (pad 0x36 ++ m))

/-! ## AES-256 -/

/-- Products in GF(2^8). -/
def gfDouble (x : Nat) : Nat := if x < 128 then 2 * x else (2 * x) ^^^ 0x11B
def gfMul (a b : Nat) : Nat := (List.range 8).foldl (fun r i => let d := gfDouble r; if bitOf b (7 - i) then d ^^^ a else d) 0

/-- The inverse, a to the power 254; 0 of 0. -/
def gfInv (a : Nat) : Nat := ((List.range 7).foldl (fun (x : Nat × Nat) _ => let q := gfMul x.1 x.1; (q, gfMul x.2 q)) (a, 1)).2

def rotl8 (k x : Nat) : Nat := (x <<< k ||| x >>> (8 - k)) % 256

/-- The S-box and its inverse. -/
def sbox (a : Nat) : Nat := let y := gfInv a; y ^^^ rotl8 1 y ^^^ rotl8 2 y ^^^ rotl8 3 y ^^^ rotl8 4 y ^^^ 0x63
def invSbox (a : Nat) : Nat := gfInv (rotl8 1 a ^^^ rotl8 3 a ^^^ rotl8 6 a ^^^ 0x05)

/-- The round constant of key word 8 j. -/
def rcon (j : Nat) : Nat := (List.range (j - 1)).foldl (fun x _ => gfDouble x) 1

/-- `n` more words of the key schedule from number `i` on, newest first. -/
def keyWords : Nat → Nat → List (List Nat) → List (List Nat)
  | 0, _, l => l
  | n + 1, i, l =>
    let t := l.getD 0 []
    let u := if i % 8 = 0 then xorList ((t.drop 1 ++ t.take 1).map sbox) [rcon (i / 8), 0, 0, 0] else if i % 8 = 4 then t.map sbox else t
    keyWords n (i + 1) (xorList (l.getD 7 []) u :: l)

/-- The 15 round keys of a key of 32 bytes. -/
def roundKeys (key : List Byte) : List (List Nat) :=
  let k := nats key
  let ws := (keyWords 52 8 ((List.range 8).map (fun i => (k.drop (4 * i)).take 4)).reverse).reverse
  (List.range 15).map (fun r => (List.range 4).flatMap (fun c => ws.getD (4 * r + c) []))

/-- ShiftRows and MixColumns and their inverses, on the 16 bytes of the state. -/
def shiftRows (l : List Nat) : List Nat := (List.range 16).map (fun i => l.getD (i % 4 + 4 * ((i / 4 + i % 4) % 4)) 0)
def unshiftRows (l : List Nat) : List Nat := (List.range 16).map (fun i => l.getD (i % 4 + 4 * ((i / 4 + 4 - i % 4) % 4)) 0)
def mixWith (m l : List Nat) : List Nat :=
  (List.range 16).map (fun i => (List.range 4).foldl (fun x j => x ^^^ gfMul (l.getD (i / 4 * 4 + (i % 4 + j) % 4) 0) (m.getD j 0)) 0)

/-- A block of 16 bytes under the round keys. -/
def aesRounds : List (List Nat) → List Nat → List Nat
  | [], l => l
  | [k], l => xorList (shiftRows (l.map sbox)) k
  | k :: ks, l => aesRounds ks (xorList (mixWith [2, 3, 1, 1] (shiftRows (l.map sbox))) k)
def aesBlock (rk : List (List Nat)) (l : List Nat) : List Nat := aesRounds (rk.drop 1) (xorList l (rk.getD 0 []))

/-- The inverse: round keys in reverse order. -/
def aesUnrounds : List (List Nat) → List Nat → List Nat
  | [], l => l
  | [k], l => xorList ((unshiftRows l).map invSbox) k
  | k :: ks, l => aesUnrounds ks (mixWith [14, 11, 13, 9] (xorList ((unshiftRows l).map invSbox) k))
def aesUnblock (rk : List (List Nat)) (l : List Nat) : List Nat :=
  let r := rk.reverse
  aesUnrounds (r.drop 1) (xorList l (r.getD 0 []))

/-! ## GCM and GMAC -/

/-- The product in GF(2^128) of two blocks as big-endian numbers. -/
def ghashMul (x y : Nat) : Nat :=
  ((List.range 128).foldl (fun (z : Nat × Nat) i =>
    (if bitOf x (127 - i) then z.1 ^^^ z.2 else z.1, if z.2 % 2 = 1 then z.2 / 2 ^^^ 0xE1 <<< 120 else z.2 / 2)) (0, y)).1

/-- Blocks of 16 bytes as numbers, the last one padded with 0. -/
def blocks16 : Nat → List Byte → List Nat
  | 0, _ => []
  | n + 1, l => beNat (l.take 16 ++ List.replicate (16 - l.length) 0) :: blocks16 n (l.drop 16)

def ghash (h : Nat) (l : List Nat) : Nat := l.foldl (fun y x => ghashMul (y ^^^ x) h) 0

/-- A byte string combined with the key stream from counter `c` on; `iv`: 12 bytes. -/
def ctrCrypt (rk : List (List Nat)) (iv : List Byte) : Nat → Nat → List Byte → List Byte
  | 0, _, _ => []
  | n + 1, c, l =>
    bytes (xorList (nats (l.take 16)) (aesBlock rk (nats (iv ++ beBytes 4 c)))) ++ ctrCrypt rk iv n (c + 1) (l.drop 16)

/-- AES-256-GCM of a plaintext or a ciphertext under a key of 32 bytes and an IV of 12: the other one. -/
def gcmCrypt (key iv l : List Byte) : List Byte := ctrCrypt (roundKeys key) iv (ceilDiv l.length 16) 2 l

/-- The 16 bytes of the AES-256-GCM tag of additional data and a ciphertext. -/
def gcmTag (key iv aad cipher : List Byte) : List Byte :=
  let rk := roundKeys key
  let h := beNat (bytes (aesBlock rk (List.replicate 16 0)))
  let l := blocks16 (ceilDiv aad.length 16) aad ++ blocks16 (ceilDiv cipher.length 16) cipher
    ++ [8 * aad.length * 2 ^ 64 + 8 * cipher.length]
  beBytes 16 (ghash h l ^^^ beNat (bytes (aesBlock rk (nats (iv ++ beBytes 4 1)))))

/-! ## XTS -/

/-- The tweak of the next block, as a little-endian number. -/
def nextTweak (t : Nat) : Nat := (2 * t % 2 ^ 128) ^^^ (if 2 ^ 127 ≤ t then 0x87 else 0)

/-- The blocks of a data unit through a block function. -/
def xtsBlocks (f : List Nat → List Nat) : Nat → Nat → List Byte → List Byte
  | 0, _, _ => []
  | n + 1, t, l =>
    let w := nats (leBytes 16 t)
    bytes (xorList (f (xorList (nats (l.take 16)) w)) w) ++ xtsBlocks f n (nextTweak t) (l.drop 16)

/-- The first tweak of data unit `n`: its number, little-endian, under the second half of the key. -/
def firstTweak (key : List Byte) (n : Nat) : Nat := leNat (bytes (aesBlock (roundKeys (key.drop 32)) (nats (leBytes 16 n))))

/-- XTS-AES-256 of a data unit of whole blocks under a key of 64 bytes. -/
def xtsEncrypt (key : List Byte) (n : Nat) (l : List Byte) : List Byte :=
  xtsBlocks (aesBlock (roundKeys (key.take 32))) (l.length / 16) (firstTweak key n) l
def xtsDecrypt (key : List Byte) (n : Nat) (l : List Byte) : List Byte :=
  xtsBlocks (aesUnblock (roundKeys (key.take 32))) (l.length / 16) (firstTweak key n) l

/-! ## P-384 -/

def p384 : Nat := 2 ^ 384 - 2 ^ 128 - 2 ^ 96 + 2 ^ 32 - 1
def p384n : Nat := 0xFFFFFFFFFFFFFFFFFFFFFFFFFFFFFFFFFFFFFFFFFFFFFFFFC7634D81F4372DDF581A0DB248B0A77AECEC196ACCC52973
def p384b : Nat := 0xB3312FA7E23EE7E4988E056BE3F82D19181D9C6EFE8141120314088F5013875AC656398D8A2ED19D2A85C8EDD3EC2AEF
def p384g : Nat × Nat :=
  (0xAA87CA22BE8B05378EB1C71EF320AD746E1D3B628BA79B9859F741E082542A385502F25DBF55296C3A545E3872760AB7,
   0x3617DE4A96262C6F5D9E98BF9292DC29F8F41DBD289A147CE9DA3113B5F0B8C00A60B1CE1D7E819D7A431D7C90EA0E5F)

/-- A power modulo `m`, for an exponent below 2^384; the inverse modulo a prime. -/
def powMod (b e m : Nat) : Nat := (List.range 384).foldl (fun r i => let q := r * r % m; if bitOf e (383 - i) then q * b % m else q) 1
def invMod (x m : Nat) : Nat := powMod (x % m) (m - 2) m

/-- A point of the curve; `none`: the point at infinity. -/
abbrev Point := Option (Nat × Nat)

/-- The curve y^2 = x^3 - 3 x + b. -/
def onCurve (q : Nat × Nat) : Bool :=
  decide (q.1 < p384) && decide (q.2 < p384) && q.2 * q.2 % p384 == (q.1 * q.1 * q.1 + (p384 - 3) * q.1 + p384b) % p384

/-- The sum of two points by the slope of the line through them. -/
def onSlope (x1 y1 x2 slope : Nat) : Point :=
  let x := (slope * slope + 2 * p384 - x1 - x2) % p384
  some (x, (slope * (x1 + p384 - x) + p384 - y1) % p384)

def addPoint : Point → Point → Point
  | none, q => q
  | q, none => q
  | some (x1, y1), some (x2, y2) =>
    if x1 = x2 then
      (if y1 = y2 ∧ y1 ≠ 0 then onSlope x1 y1 x2 ((3 * x1 * x1 + p384 - 3) * invMod (2 * y1) p384 % p384) else none)
    else onSlope x1 y1 x2 ((y2 + p384 - y1) * invMod (x2 + p384 - x1) p384 % p384)

/-- A multiple of a point. -/
def mulPoint (k : Nat) (q : Point) : Point :=
  (List.range 384).foldl (fun r i => let d := addPoint r r; if bitOf k (383 - i) then addPoint d q else d) none

/-- The point of 96 bytes: x then y, big-endian. -/
def pointOf (l : List Byte) : Nat × Nat := (beNat (l.take 48), beNat ((l.drop 48).take 48))

/-- The 96 bytes of a point. -/
def pointBytes (q : Point) : List Byte := match q with | some (x, y) => beBytes 48 x ++ beBytes 48 y | none => List.replicate 96 0

/-- ECDSA over P-384: the signature, r then s, of a digest of 48 bytes verifies under a public key of 96 bytes. -/
def ecdsaGood (key digest sig : List Byte) : Bool :=
  let q := pointOf key
  let (r, t) := pointOf sig
  let w := invMod t p384n
  let sum := addPoint (mulPoint (beNat digest * w % p384n) (some p384g)) (mulPoint (r * w % p384n) (some q))
  onCurve q && decide (1 ≤ r) && decide (r < p384n) && decide (1 ≤ t) && decide (t < p384n)
    && (match sum with | some (x, _) => x % p384n == r | none => false)

/-- ECDH over P-384: the 48 bytes of the shared x of a private key and a public key of 96 bytes; `none`: no point of the curve. -/
def ecdh (d : Nat) (key : List Byte) : Option (List Byte) :=
  let q := pointOf key
  if onCurve q then (mulPoint d (some q)).map (fun z => beBytes 48 z.1) else none

end Sys2Proof.Crypto
end

