-- ==== Sys2Proof/Config.lean ====
section
/-!
DEFINITION. What an implementation fixes and the values the manual leaves open: constants with no body, so that no
statement can rest on what they are.
-/
namespace Sys2Proof.Config
open Sys2Proof

/-- A free value of `w` bits, by the number of the draw. -/
opaque freeValue (w n : Nat) : BitVec w

/-- What a read of an instruction word with a double-bit error returns (R45), by draw and word number. -/
opaque brokenWord (draw key : Nat) : BitVec 80

/-- The outbound queue of device `src` that feeds inbound queue `rq` of this one (minus 16,384): the manual gives the
receiver's credit flit that number (R360) and no way by which the receiver learns it. -/
opaque senderQueue (src rq : Nat) : BitVec 14

/-- The lines of a stack that a snapshot of an image needs (R271): SNAP_INFO returns it, and the manual gives no way to
compute it. -/
opaque snapNeed (imageId stack : Nat) : BitVec 30

/-- The initial state of a lane's scrambler, which is arbitrary (R284), and the bits that its PRBS generator begins with (R305). -/
opaque scrambleStart (lane : Nat) : BitVec 58
opaque prbsStart (lane : Nat) : BitVec 31

/-- The device's unique Ethernet MAC address, held in fuses (R236): byte `i`. -/
opaque fuseMac (i : Nat) : Byte

/-- Whether INC, held to 2^-40 ns (R311), is rounded up for a rate trim. -/
opaque incUp (rate : Int) : Bool

/-- Whether an odd difference is rounded up when it is halved for a mean path delay (R320). -/
opaque halfUp (x : Int) : Bool

/-- A bit of the adapter fabric whose value the manual leaves open, by draw and signal (R399, R405, R411). -/
opaque fabricBit (draw signal : Nat) : Bool

/-- The private half of the device identity key, held in fuses (R429). -/
opaque identityKey : BitVec 384

/-- The working keys of a number, as Gander draws them: K_MEM and K_TAG (R431). -/
opaque memoryKey (draw : Nat) : BitVec 512
opaque tagKey (draw : Nat) : BitVec 256

/-- The plaintext of a snapshot's lines, whose layout the manual leaves open: byte `i` of a stack's part of a slot, by draw (R272, R445). -/
opaque snapByte (draw i : Nat) : Byte

/-- The signature of a firmware bank verifies against the key hash held in fuses (R237, R238). -/
opaque bankGood (bank : List Byte) : Bool

/-- The fused AVS set point of a compute die at a step clock, in mV (R505). -/
opaque avsMv (die mhz : Nat) : BitVec 10

/-- FW_VERSION and FW_LEVEL of the firmware in a bank (R9, R269). -/
opaque fwVersion (bank : List Byte) : BitVec 32
opaque fwLevel (bank : List Byte) : BitVec 8

end Sys2Proof.Config
end

