-- ==== Sys2Proof/Machine/RegDefs.lean ====
section
/-!
DEFINITION. The registers of BAR0: every field of the manual's register tables, by its bit address in BAR0, with
its width, access code (R16) and reset value, and the fields that overlap a 32-bit word.
-/
namespace Sys2Proof

/-- The access codes of R16. -/
inductive Acc where
  | rw | ro | wo | w1c | w1s | rc
deriving DecidableEq, Repr

/-- One register field: `key` is byte offset times 8 plus the lowest bit. -/
structure Field where
  key : Nat
  width : Nat
  acc : Acc
  reset : Nat
deriving DecidableEq, Repr

/-- The field at bit `lo` of the register at BAR0 offset `off`. -/
def fld (off lo width : Nat) (acc : Acc) (reset : Nat) : Field := ⟨off * 8 + lo, width, acc, reset⟩

namespace Reg

/-! ## identity and device control (R497, R83, R146, R234, R498, R116, R278, R449) -/

def DEV_GRADE : Field := fld 0x0 0 4 .ro 1
def DEV_STEPPING : Field := fld 0x0 4 8 .ro 1
def FW_VERSION : Field := fld 0x4 0 32 .ro 0
def SERIAL_LO : Field := fld 0x8 0 32 .ro 0
def SERIAL_HI : Field := fld 0xC 0 32 .ro 0
def FAULT_CODE : Field := fld 0x500 0 16 .ro 0
def FAULT_CYCLE : Field := fld 0x500 16 48 .ro 0
def FAULT_LOC : Field := fld 0x508 0 64 .ro 0
def FAULT_OVERFLOW : Field := fld 0x510 0 32 .rc 0
def RSVD_WRITE : Field := fld 0x514 0 32 .rc 0
def UNMAPPED_ACCESS : Field := fld 0x518 0 32 .rc 0
def SEQ_MODE : Field := fld 0x2000 0 1 .rw 0
def SEQ_RUN : Field := fld 0x2000 1 1 .w1s 0
def SEQ_STOP : Field := fld 0x2000 2 1 .w1s 0
def SEQ_STATE : Field := fld 0x2004 0 3 .ro 0
def IN_CYCLE : Field := fld 0x2004 3 1 .ro 0
def IN_COMMIT : Field := fld 0x2004 4 1 .ro 0
def WAIT_SKEW : Field := fld 0x2004 5 1 .ro 0
def WAIT_PACE : Field := fld 0x2004 6 1 .ro 0
def WAIT_THROTTLE : Field := fld 0x2004 7 1 .ro 0
def STOP_CAUSE : Field := fld 0x2004 8 4 .ro 0
def OVERRUN : Field := fld 0x2004 12 1 .w1c 0
def SKEW_LIMIT : Field := fld 0x2008 0 8 .rw 8
def NOPROGRESS_LIMIT : Field := fld 0x200C 0 32 .rw 1000000
def CYCLE_NUM : Field := fld 0x2010 0 48 .ro 0
def RUN_COUNT : Field := fld 0x2018 0 32 .rw 0
def PACE_T0_NS : Field := fld 0x2020 0 30 .rw 0
def PACE_T0_SEC : Field := fld 0x2024 0 48 .rw 0
def PACE_PERIOD_NS : Field := fld 0x202C 0 32 .rw 0
def PACE_PERIOD_FRAC : Field := fld 0x2030 0 16 .rw 0
def OVERRUN_COUNT : Field := fld 0x2040 0 32 .rc 0
def SKEW_WAIT_COUNT : Field := fld 0x2044 0 32 .rc 0
def THROTTLE_WAIT_COUNT : Field := fld 0x2048 0 32 .rc 0
def LAST_PERIOD : Field := fld 0x204C 0 32 .ro 0
def MAX_PERIOD : Field := fld 0x2050 0 32 .rc 0
def STOP_LOC : Field := fld 0x2058 0 64 .ro 0
def LOAD_PHASE : Field := fld 0x3000 0 4 .ro 0
def LOAD_PARTITION : Field := fld 0x3000 4 4 .ro 0
def LOAD_PARTIAL : Field := fld 0x3000 8 1 .ro 0
def LOAD_FOLD : Field := fld 0x3000 9 1 .ro 0
def CFG_ERR : Field := fld 0x3000 10 1 .w1c 0
def TIO_DISABLED : Field := fld 0x3000 11 1 .ro 0
def LOAD_BYTES : Field := fld 0x3008 0 64 .ro 0
def LOAD_ERR_0 : Field := fld 0x3010 0 64 .ro 0
def LOAD_ERR_1 : Field := fld 0x3018 0 64 .ro 0
def BOOT_BANK : Field := fld 0x3020 0 1 .ro 0
def FALLBACK : Field := fld 0x3020 1 1 .ro 0
def OPT_DEFAULT : Field := fld 0x3020 2 1 .ro 0
def TAF_DEFAULT_FAIL : Field := fld 0x3020 3 1 .ro 0
def NEXT_BANK : Field := fld 0x3020 4 1 .ro 0
def ACTIVE_PAIR : Field := fld 0x4000 0 1 .ro 0
def PAIR_A : Field := fld 0x4000 1 2 .ro 1
def PAIR_B : Field := fld 0x4000 3 2 .ro 0
def SWITCHING : Field := fld 0x4000 5 1 .ro 0
def MULE_SWITCH_COUNT : Field := fld 0x4004 0 32 .rc 0
def LAST_SWITCH_US : Field := fld 0x4008 0 32 .ro 0
def MULE_CORR : Field := fld 0x400C 0 32 .rc 0
def CR_TIMEOUT : Field := fld 0x4010 0 20 .rw 100
def FENCE_DRAIN : Field := fld 0x4014 0 20 .rw 100
def RING_TIMEOUTS : Field := fld 0x4018 0 32 .rc 0
def LATE_COMPLETION : Field := fld 0x401C 0 32 .rc 0
def TAGS_QUAR : Field := fld 0x4020 0 14 .ro 0
def TAGS_USED : Field := fld 0x4024 0 15 .ro 0
def FENCE_FORCED : Field := fld 0x4028 0 32 .rc 0
def BAR0_ERR : Field := fld 0x402C 0 3 .rc 0
def BF_MODULE : Field := fld 0x4030 0 4 .ro 0
def BF_PEER : Field := fld 0x4030 25 2 .ro 0
def BF_DIE : Field := fld 0x4030 27 2 .ro 0
def BF_NEIGHBOUR : Field := fld 0x4030 29 1 .ro 0
def BF_HUB_SIDE : Field := fld 0x4030 30 1 .ro 0
def BF_VALID : Field := fld 0x4030 31 1 .w1c 0
def WDOG_PERIOD : Field := fld 0x4040 0 14 .rw 1000
def WDOG_KICK : Field := fld 0x4044 0 32 .wo 0
def WDOG_LEFT : Field := fld 0x4048 0 14 .ro 1000
def UART_BAUD : Field := fld 0x4100 0 32 .ro 115200
def FRAME_ERR : Field := fld 0x4104 0 32 .rc 0
def UART_BREAKS : Field := fld 0x4108 0 32 .rc 0
def UART_OVERRUN : Field := fld 0x410C 0 32 .rc 0
def DEV_ID : Field := fld 0x5000 0 9 .rw 0
def DIAMETER : Field := fld 0x5000 9 6 .rw 0
def SYS_EPOCH : Field := fld 0x5004 0 32 .ro 0
def FW_LEVEL : Field := fld 0x5008 0 8 .ro 1
def SYS_LEVEL : Field := fld 0x5008 8 8 .ro 1
def ALL_UP : Field := fld 0x500C 0 1 .ro 0
def ANY_QUAR : Field := fld 0x500C 1 1 .ro 0
def ANY_DOWN : Field := fld 0x500C 2 1 .ro 0
def RUN_REFUSED : Field := fld 0x500C 3 1 .w1c 0
def SYS_CFG_REFUSED : Field := fld 0x500C 4 1 .w1c 0
def GOP_LATE : Field := fld 0x500C 5 1 .w1c 0
def SYS_STOP_ORIGIN : Field := fld 0x5010 0 9 .ro 0
def SYS_STOP_CAUSE : Field := fld 0x5010 9 2 .ro 0
def SYS_STOP_CYCLE : Field := fld 0x5010 16 48 .ro 0
def HOP_EXCEED : Field := fld 0x5018 0 32 .rc 0
def PIN_EN : Field := fld 0x6000 0 1 .rw 0
def JTAG_DEBUG : Field := fld 0x6000 1 1 .ro 0
def ALARM : Field := fld 0x6004 0 1 .w1c 0
def REKEY_ACTIVE : Field := fld 0x6004 1 1 .ro 0
def RIGHTS_PENDING : Field := fld 0x6004 2 1 .ro 0
def RIGHTS_EPOCH : Field := fld 0x6008 0 16 .ro 0
def RIGHT_REFUSALS : Field := fld 0x600C 0 32 .rc 0
def ALARM_CAUSE : Field := fld 0x6010 0 3 .ro 0
def ALARM_CLASS : Field := fld 0x6010 3 3 .ro 0
def ALARM_PARTITION : Field := fld 0x6010 6 4 .ro 0
def ALARM_STACK : Field := fld 0x6010 10 2 .ro 0
def ALARM_CYCLE : Field := fld 0x6010 16 48 .ro 0
def ALARM_LINE : Field := fld 0x6018 0 30 .ro 0
def ALARM_COUNT : Field := fld 0x6020 0 32 .rc 0
/-- The fields that overlap the 32-bit word at offset `o` of: identity and device control (R497, R83, R146, R234, R498, R116, R278, R449). -/
def identWord (o : Nat) : List Field :=
  match o with
  | 0x0 => [DEV_GRADE, DEV_STEPPING]
  | 0x4 => [FW_VERSION]
  | 0x8 => [SERIAL_LO]
  | 0xC => [SERIAL_HI]
  | 0x500 => [FAULT_CODE, FAULT_CYCLE]
  | 0x504 => [FAULT_CYCLE]
  | 0x508 => [FAULT_LOC]
  | 0x50C => [FAULT_LOC]
  | 0x510 => [FAULT_OVERFLOW]
  | 0x514 => [RSVD_WRITE]
  | 0x518 => [UNMAPPED_ACCESS]
  | 0x2000 => [SEQ_MODE, SEQ_RUN, SEQ_STOP]
  | 0x2004 => [SEQ_STATE, IN_CYCLE, IN_COMMIT, WAIT_SKEW, WAIT_PACE, WAIT_THROTTLE, STOP_CAUSE, OVERRUN]
  | 0x2008 => [SKEW_LIMIT]
  | 0x200C => [NOPROGRESS_LIMIT]
  | 0x2010 => [CYCLE_NUM]
  | 0x2014 => [CYCLE_NUM]
  | 0x2018 => [RUN_COUNT]
  | 0x2020 => [PACE_T0_NS]
  | 0x2024 => [PACE_T0_SEC]
  | 0x2028 => [PACE_T0_SEC]
  | 0x202C => [PACE_PERIOD_NS]
  | 0x2030 => [PACE_PERIOD_FRAC]
  | 0x2040 => [OVERRUN_COUNT]
  | 0x2044 => [SKEW_WAIT_COUNT]
  | 0x2048 => [THROTTLE_WAIT_COUNT]
  | 0x204C => [LAST_PERIOD]
  | 0x2050 => [MAX_PERIOD]
  | 0x2058 => [STOP_LOC]
  | 0x205C => [STOP_LOC]
  | 0x3000 => [LOAD_PHASE, LOAD_PARTITION, LOAD_PARTIAL, LOAD_FOLD, CFG_ERR, TIO_DISABLED]
  | 0x3008 => [LOAD_BYTES]
  | 0x300C => [LOAD_BYTES]
  | 0x3010 => [LOAD_ERR_0]
  | 0x3014 => [LOAD_ERR_0]
  | 0x3018 => [LOAD_ERR_1]
  | 0x301C => [LOAD_ERR_1]
  | 0x3020 => [BOOT_BANK, FALLBACK, OPT_DEFAULT, TAF_DEFAULT_FAIL, NEXT_BANK]
  | 0x4000 => [ACTIVE_PAIR, PAIR_A, PAIR_B, SWITCHING]
  | 0x4004 => [MULE_SWITCH_COUNT]
  | 0x4008 => [LAST_SWITCH_US]
  | 0x400C => [MULE_CORR]
  | 0x4010 => [CR_TIMEOUT]
  | 0x4014 => [FENCE_DRAIN]
  | 0x4018 => [RING_TIMEOUTS]
  | 0x401C => [LATE_COMPLETION]
  | 0x4020 => [TAGS_QUAR]
  | 0x4024 => [TAGS_USED]
  | 0x4028 => [FENCE_FORCED]
  | 0x402C => [BAR0_ERR]
  | 0x4030 => [BF_MODULE, BF_PEER, BF_DIE, BF_NEIGHBOUR, BF_HUB_SIDE, BF_VALID]
  | 0x4040 => [WDOG_PERIOD]
  | 0x4044 => [WDOG_KICK]
  | 0x4048 => [WDOG_LEFT]
  | 0x4100 => [UART_BAUD]
  | 0x4104 => [FRAME_ERR]
  | 0x4108 => [UART_BREAKS]
  | 0x410C => [UART_OVERRUN]
  | 0x5000 => [DEV_ID, DIAMETER]
  | 0x5004 => [SYS_EPOCH]
  | 0x5008 => [FW_LEVEL, SYS_LEVEL]
  | 0x500C => [ALL_UP, ANY_QUAR, ANY_DOWN, RUN_REFUSED, SYS_CFG_REFUSED, GOP_LATE]
  | 0x5010 => [SYS_STOP_ORIGIN, SYS_STOP_CAUSE, SYS_STOP_CYCLE]
  | 0x5014 => [SYS_STOP_CYCLE]
  | 0x5018 => [HOP_EXCEED]
  | 0x6000 => [PIN_EN, JTAG_DEBUG]
  | 0x6004 => [ALARM, REKEY_ACTIVE, RIGHTS_PENDING]
  | 0x6008 => [RIGHTS_EPOCH]
  | 0x600C => [RIGHT_REFUSALS]
  | 0x6010 => [ALARM_CAUSE, ALARM_CLASS, ALARM_PARTITION, ALARM_STACK, ALARM_CYCLE]
  | 0x6014 => [ALARM_CYCLE]
  | 0x6018 => [ALARM_LINE]
  | 0x6020 => [ALARM_COUNT]
  | _ => []

/-! ## IMAGE_ID of partition p (R234) -/

/-- BAR0 offset of: IMAGE_ID of partition p (R234). -/
def imageBase (p : Nat) : Nat := 0x3100 + p * 16
def IMAGE_ID_LO (p : Nat) : Field := fld (imageBase p + 0x0) 0 64 .ro 0
def IMAGE_ID_HI (p : Nat) : Field := fld (imageBase p + 0x8) 0 64 .ro 0
/-- The fields that overlap the 32-bit word at offset `o` of: IMAGE_ID of partition p (R234). -/
def imageWord (p : Nat) (o : Nat) : List Field :=
  match o with
  | 0x0 => [IMAGE_ID_LO p]
  | 0x4 => [IMAGE_ID_LO p]
  | 0x8 => [IMAGE_ID_HI p]
  | 0xC => [IMAGE_ID_HI p]
  | _ => []

/-! ## MAP_ID of partition p (R234) -/

/-- BAR0 offset of: MAP_ID of partition p (R234). -/
def mapidBase (p : Nat) : Nat := 0x3200 + p * 4
def MAP_ID (p : Nat) : Field := fld (mapidBase p + 0x0) 0 32 .ro 0
/-- The fields that overlap the 32-bit word at offset `o` of: MAP_ID of partition p (R234). -/
def mapidWord (p : Nat) (o : Nat) : List Field :=
  match o with
  | 0x0 => [MAP_ID p]
  | _ => []

/-! ## SNAP_SLOT of partition 0, slot k (R278) -/

/-- BAR0 offset of: SNAP_SLOT of partition 0, slot k (R278). -/
def snapslotBase (k : Nat) : Nat := 0x5040 + k * 16
def SNAP_VALID (k : Nat) : Field := fld (snapslotBase k + 0x0) 0 1 .ro 0
def SNAP_INVALID (k : Nat) : Field := fld (snapslotBase k + 0x0) 1 1 .ro 0
def SNAP_WRITING (k : Nat) : Field := fld (snapslotBase k + 0x0) 2 1 .ro 0
def SNAP_EPOCH (k : Nat) : Field := fld (snapslotBase k + 0x4) 0 32 .ro 0
def SNAP_CYCLE (k : Nat) : Field := fld (snapslotBase k + 0x8) 0 48 .ro 0
/-- The fields that overlap the 32-bit word at offset `o` of: SNAP_SLOT of partition 0, slot k (R278). -/
def snapslotWord (k : Nat) (o : Nat) : List Field :=
  match o with
  | 0x0 => [SNAP_VALID k, SNAP_INVALID k, SNAP_WRITING k]
  | 0x4 => [SNAP_EPOCH k]
  | 0x8 => [SNAP_CYCLE k]
  | 0xC => [SNAP_CYCLE k]
  | _ => []

/-! ## TRUNK_SYS of trunk t (R278) -/

/-- BAR0 offset of: TRUNK_SYS of trunk t (R278). -/
def trunksysBase (t : Nat) : Nat := 0x5100 + t * 16
def TS_STATE (t : Nat) : Field := fld (trunksysBase t + 0x0) 0 2 .ro 0
def TS_REASON (t : Nat) : Field := fld (trunksysBase t + 0x0) 2 3 .ro 0
def TS_PARTNER_DEV (t : Nat) : Field := fld (trunksysBase t + 0x0) 5 9 .ro 0
def TS_LINK_LEVEL (t : Nat) : Field := fld (trunksysBase t + 0x0) 14 8 .ro 0
def TS_PARTNER_EPOCH (t : Nat) : Field := fld (trunksysBase t + 0x4) 0 32 .ro 0
def TS_PARTNER_CYCLE (t : Nat) : Field := fld (trunksysBase t + 0x8) 0 48 .ro 0
/-- The fields that overlap the 32-bit word at offset `o` of: TRUNK_SYS of trunk t (R278). -/
def trunksysWord (t : Nat) (o : Nat) : List Field :=
  match o with
  | 0x0 => [TS_STATE t, TS_REASON t, TS_PARTNER_DEV t, TS_LINK_LEVEL t]
  | 0x4 => [TS_PARTNER_EPOCH t]
  | 0x8 => [TS_PARTNER_CYCLE t]
  | 0xC => [TS_PARTNER_CYCLE t]
  | _ => []

/-! ## GOP_SLOT j (R278) -/

/-- BAR0 offset of: GOP_SLOT j (R278). -/
def gopslotBase (j : Nat) : Nat := 0x5700 + j * 16
def GOP_STATE (j : Nat) : Field := fld (gopslotBase j + 0x0) 0 2 .ro 0
def GOP_KIND (j : Nat) : Field := fld (gopslotBase j + 0x0) 2 3 .ro 0
def GOP_BY_TIME (j : Nat) : Field := fld (gopslotBase j + 0x0) 5 1 .ro 0
def GOP_ABORTED (j : Nat) : Field := fld (gopslotBase j + 0x0) 6 1 .ro 0
def GOP_ORIGIN (j : Nat) : Field := fld (gopslotBase j + 0x0) 7 9 .ro 0
def GOP_SEQ (j : Nat) : Field := fld (gopslotBase j + 0x0) 16 8 .ro 0
def GOP_ROUND (j : Nat) : Field := fld (gopslotBase j + 0x0) 24 6 .ro 0
def GOP_CYCLE (j : Nat) : Field := fld (gopslotBase j + 0x8) 0 48 .ro 0
/-- The fields that overlap the 32-bit word at offset `o` of: GOP_SLOT j (R278). -/
def gopslotWord (j : Nat) (o : Nat) : List Field :=
  match o with
  | 0x0 => [GOP_STATE j, GOP_KIND j, GOP_BY_TIME j, GOP_ABORTED j, GOP_ORIGIN j, GOP_SEQ j, GOP_ROUND j]
  | 0x8 => [GOP_CYCLE j]
  | 0xC => [GOP_CYCLE j]
  | _ => []

/-! ## DEV_ROUTE entry d (R278) -/

/-- BAR0 offset of: DEV_ROUTE entry d (R278). -/
def devrouteBase (d : Nat) : Nat := 0x5800 + d * 4
def DR_TRUNK (d : Nat) : Field := fld (devrouteBase d + 0x0) 0 7 .rw 0
def DR_VALID (d : Nat) : Field := fld (devrouteBase d + 0x0) 7 1 .rw 0
/-- The fields that overlap the 32-bit word at offset `o` of: DEV_ROUTE entry d (R278). -/
def devrouteWord (d : Nat) (o : Nat) : List Field :=
  match o with
  | 0x0 => [DR_TRUNK d, DR_VALID d]
  | _ => []

/-! ## HBM_REGION of partition p on stack st (R449) -/

/-- BAR0 offset of: HBM_REGION of partition p on stack st (R449). -/
def hbmregionBase (p st : Nat) : Nat := 0x6100 + p * 32 + st * 8
def HBM_BASE (p st : Nat) : Field := fld (hbmregionBase p st + 0x0) 0 30 .ro 0
def HBM_LINES (p st : Nat) : Field := fld (hbmregionBase p st + 0x0) 32 30 .ro (if p = 0 then 0x1F800000 else 0)
/-- The fields that overlap the 32-bit word at offset `o` of: HBM_REGION of partition p on stack st (R449). -/
def hbmregionWord (p st : Nat) (o : Nat) : List Field :=
  match o with
  | 0x0 => [HBM_BASE p st]
  | 0x4 => [HBM_LINES p st]
  | _ => []

/-! ## SEAL of partition p (R449) -/

/-- BAR0 offset of: SEAL of partition p (R449). -/
def sealBase (p : Nat) : Nat := 0x6300 + p * 4
def SEALED (p : Nat) : Field := fld (sealBase p + 0x0) 0 1 .ro 0
def SEAL_RIGHTS (p : Nat) : Field := fld (sealBase p + 0x0) 1 6 .ro 0
def SEAL_KEY_SLOT (p : Nat) : Field := fld (sealBase p + 0x0) 7 5 .ro 0
/-- The fields that overlap the 32-bit word at offset `o` of: SEAL of partition p (R449). -/
def sealWord (p : Nat) (o : Nat) : List Field :=
  match o with
  | 0x0 => [SEALED p, SEAL_RIGHTS p, SEAL_KEY_SLOT p]
  | _ => []

/-! ## REKEY of stack st (R449) -/

/-- BAR0 offset of: REKEY of stack st (R449). -/
def rekeyBase (st : Nat) : Nat := 0x6600 + st * 32
def RK_STATE (st : Nat) : Field := fld (rekeyBase st + 0x0) 0 2 .ro 0
def RK_PARTITION (st : Nat) : Field := fld (rekeyBase st + 0x0) 2 4 .ro 0
def RK_BW_PCT (st : Nat) : Field := fld (rekeyBase st + 0x0) 6 7 .rw 10
def RK_BOUNDARY (st : Nat) : Field := fld (rekeyBase st + 0x8) 0 30 .ro 0
def RK_END (st : Nat) : Field := fld (rekeyBase st + 0x10) 0 30 .ro 0
/-- The fields that overlap the 32-bit word at offset `o` of: REKEY of stack st (R449). -/
def rekeyWord (st : Nat) (o : Nat) : List Field :=
  match o with
  | 0x0 => [RK_STATE st, RK_PARTITION st, RK_BW_PCT st]
  | 0x8 => [RK_BOUNDARY st]
  | 0x10 => [RK_END st]
  | _ => []

/-! ## KEY_SLOT k (R449) -/

/-- BAR0 offset of: KEY_SLOT k (R449). -/
def keyslotBase (k : Nat) : Nat := 0x6700 + k * 32
def KS_VALID (k : Nat) : Field := fld (keyslotBase k + 0x0) 0 1 .ro 0
def KS_WRAPPED (k : Nat) : Field := fld (keyslotBase k + 0x0) 1 1 .ro 0
def KS_PARTITION (k : Nat) : Field := fld (keyslotBase k + 0x0) 2 4 .ro 0
def KS_IMAGE_LO (k : Nat) : Field := fld (keyslotBase k + 0x10) 0 64 .ro 0
def KS_IMAGE_HI (k : Nat) : Field := fld (keyslotBase k + 0x18) 0 64 .ro 0
/-- The fields that overlap the 32-bit word at offset `o` of: KEY_SLOT k (R449). -/
def keyslotWord (k : Nat) (o : Nat) : List Field :=
  match o with
  | 0x0 => [KS_VALID k, KS_WRAPPED k, KS_PARTITION k]
  | 0x10 => [KS_IMAGE_LO k]
  | 0x14 => [KS_IMAGE_LO k]
  | 0x18 => [KS_IMAGE_HI k]
  | 0x1C => [KS_IMAGE_HI k]
  | _ => []

/-! ## reset and power (R521) -/

/-- BAR0 offset of: reset and power (R521). -/
def powerBase : Nat := 0x10000
def RST_POR : Field := fld (powerBase + 0x0) 0 1 .w1c 1
def RST_PIN : Field := fld (powerBase + 0x0) 1 1 .w1c 0
def RST_CMD : Field := fld (powerBase + 0x0) 2 1 .w1c 0
def RST_WDOG : Field := fld (powerBase + 0x0) 3 1 .w1c 0
def RST_RAIL : Field := fld (powerBase + 0x0) 4 1 .w1c 0
def RST_THERM : Field := fld (powerBase + 0x0) 5 1 .w1c 0
def RST_BLOCK : Field := fld (powerBase + 0x0) 6 1 .w1c 0
def STRAP_FILTER : Field := fld (powerBase + 0x4) 0 2 .ro 0
def STRAP_RESTART : Field := fld (powerBase + 0x4) 2 1 .ro 0
def PWR_STATE : Field := fld (powerBase + 0x8) 0 3 .ro 2
def THROTTLING : Field := fld (powerBase + 0x8) 3 1 .ro 0
def AVS_ERR : Field := fld (powerBase + 0x8) 4 1 .w1c 0
def STEP_MHZ_NOW : Field := fld (powerBase + 0x8) 5 11 .ro 1000
def STEP_MHZ_REQ : Field := fld (powerBase + 0xC) 0 11 .rw 1000
def BOOT_STATE : Field := fld (powerBase + 0xC) 11 1 .ro 1
def RAIL_PGOOD : Field := fld (powerBase + 0x10) 0 23 .ro 0x7FFFFF
def RAIL_LOST : Field := fld (powerBase + 0x14) 0 23 .w1c 0
def T_THROT : Field := fld (powerBase + 0x20) 0 7 .rw 95
def LIMIT_MHZ : Field := fld (powerBase + 0x24) 0 11 .ro 1200
def HOT : Field := fld (powerBase + 0x24) 11 1 .w1c 0
def THROTTLE_COUNT : Field := fld (powerBase + 0x28) 0 32 .rc 0
def WAKE_COUNT : Field := fld (powerBase + 0x2C) 0 32 .rc 0
/-- The fields that overlap the 32-bit word at offset `o` of: reset and power (R521). -/
def powerWord (o : Nat) : List Field :=
  match o with
  | 0x0 => [RST_POR, RST_PIN, RST_CMD, RST_WDOG, RST_RAIL, RST_THERM, RST_BLOCK]
  | 0x4 => [STRAP_FILTER, STRAP_RESTART]
  | 0x8 => [PWR_STATE, THROTTLING, AVS_ERR, STEP_MHZ_NOW]
  | 0xC => [STEP_MHZ_REQ, BOOT_STATE]
  | 0x10 => [RAIL_PGOOD]
  | 0x14 => [RAIL_LOST]
  | 0x20 => [T_THROT]
  | 0x24 => [LIMIT_MHZ, HOT]
  | 0x28 => [THROTTLE_COUNT]
  | 0x2C => [WAKE_COUNT]
  | _ => []

/-! ## junction sensor k (R521) -/

/-- BAR0 offset of: junction sensor k (R521). -/
def tjBase (k : Nat) : Nat := (if k = 4 then 0x100FC else 0x10030 + k * 4)
def TJ (k : Nat) : Field := fld (tjBase k + 0x0) 0 16 .ro 0
/-- The fields that overlap the 32-bit word at offset `o` of: junction sensor k (R521). -/
def tjWord (k : Nat) (o : Nat) : List Field :=
  match o with
  | 0x0 => [TJ k]
  | _ => []

/-! ## AVS of die d (R521) -/

/-- BAR0 offset of: AVS of die d (R521). -/
def avsBase (d : Nat) : Nat := 0x10040 + d * 4
def AVS_SET_MV (d : Nat) : Field := fld (avsBase d + 0x0) 0 10 .ro 800
def AVS_BUSY (d : Nat) : Field := fld (avsBase d + 0x0) 10 1 .ro 0
/-- The fields that overlap the 32-bit word at offset `o` of: AVS of die d (R521). -/
def avsWord (d : Nat) (o : Nat) : List Field :=
  match o with
  | 0x0 => [AVS_SET_MV d, AVS_BUSY d]
  | _ => []

/-! ## EV_STATUS (R499) -/

/-- BAR0 offset of: EV_STATUS (R499). -/
def evstatBase : Nat := 0x20200
def ROUTE_REFUSED : Field := fld (evstatBase + 0x0) 0 1 .w1c 0
def EVENT_N : Field := fld (evstatBase + 0x0) 1 1 .ro 0
/-- The fields that overlap the 32-bit word at offset `o` of: EV_STATUS (R499). -/
def evstatWord (o : Nat) : List Field :=
  match o with
  | 0x0 => [ROUTE_REFUSED, EVENT_N]
  | _ => []

/-! ## EV_ROUTE of source e (R499) -/

/-- BAR0 offset of: EV_ROUTE of source e (R499). -/
def evrouteBase (e : Nat) : Nat := 0x24000 + e * 4
def EVR_VECTOR (e : Nat) : Field := fld (evrouteBase e + 0x0) 0 11 .rw 0
def EVR_EN (e : Nat) : Field := fld (evrouteBase e + 0x0) 11 1 .rw 0
def EVR_PIN (e : Nat) : Field := fld (evrouteBase e + 0x0) 12 1 .rw 0
/-- The fields that overlap the 32-bit word at offset `o` of: EV_ROUTE of source e (R499). -/
def evrouteWord (e : Nat) (o : Nat) : List Field :=
  match o with
  | 0x0 => [EVR_VECTOR e, EVR_EN e, EVR_PIN e]
  | _ => []

/-! ## time and halt (R336) -/

/-- BAR0 offset of: time and halt (R336). -/
def timeBase : Nat := 0x100000
def TIME_ROLE : Field := fld (timeBase + 0x0) 0 2 .rw 0
def TIME_SOURCE : Field := fld (timeBase + 0x0) 2 1 .rw 0
def TIME_PARENT : Field := fld (timeBase + 0x0) 3 7 .rw 0x7F
def SYNC_RATE : Field := fld (timeBase + 0x0) 10 4 .rw 7
def PDELAY_RATE : Field := fld (timeBase + 0x0) 14 4 .rw 3
def ETH_ROLE : Field := fld (timeBase + 0x0) 18 2 .rw 0
def ETH_ENCAP : Field := fld (timeBase + 0x0) 20 1 .rw 0
def TSTATE : Field := fld (timeBase + 0x4) 0 3 .ro 0
def TIME_CONFLICT : Field := fld (timeBase + 0x4) 3 1 .w1c 0
def STEP_REFUSED : Field := fld (timeBase + 0x4) 4 1 .w1c 0
def GM_HOLDOVER : Field := fld (timeBase + 0x4) 5 1 .ro 0
def TIME_NOW_NS : Field := fld (timeBase + 0x8) 0 30 .ro 0
def TIME_NOW_SEC : Field := fld (timeBase + 0xC) 0 48 .ro 0
def TIME_NOW_FRAC : Field := fld (timeBase + 0x10) 16 16 .ro 0
def RATE_ADJ : Field := fld (timeBase + 0x14) 0 32 .rw 0
def TIME_CHILD0 : Field := fld (timeBase + 0x20) 0 32 .rw 0
def TIME_CHILD1 : Field := fld (timeBase + 0x24) 0 32 .rw 0
def TIME_CHILD2 : Field := fld (timeBase + 0x28) 0 32 .rw 0
def LAST_OFFSET : Field := fld (timeBase + 0x30) 0 64 .ro 0
def HALT_DISC : Field := fld (timeBase + 0x900) 0 17 .rw 2000
def HALT_A : Field := fld (timeBase + 0x904) 0 1 .ro 0
def HALT_B : Field := fld (timeBase + 0x904) 1 1 .ro 0
def HALT_DISC_LATCH : Field := fld (timeBase + 0x904) 2 1 .w1c 0
def HALT_RUN_BLOCKED : Field := fld (timeBase + 0x904) 3 1 .w1c 0
def HALT_MISMATCH : Field := fld (timeBase + 0x908) 0 32 .rc 0
def HALT_LAST_US : Field := fld (timeBase + 0x90C) 0 32 .ro 0
/-- The fields that overlap the 32-bit word at offset `o` of: time and halt (R336). -/
def timeWord (o : Nat) : List Field :=
  match o with
  | 0x0 => [TIME_ROLE, TIME_SOURCE, TIME_PARENT, SYNC_RATE, PDELAY_RATE, ETH_ROLE, ETH_ENCAP]
  | 0x4 => [TSTATE, TIME_CONFLICT, STEP_REFUSED, GM_HOLDOVER]
  | 0x8 => [TIME_NOW_NS]
  | 0xC => [TIME_NOW_SEC]
  | 0x10 => [TIME_NOW_SEC, TIME_NOW_FRAC]
  | 0x14 => [RATE_ADJ]
  | 0x20 => [TIME_CHILD0]
  | 0x24 => [TIME_CHILD1]
  | 0x28 => [TIME_CHILD2]
  | 0x30 => [LAST_OFFSET]
  | 0x34 => [LAST_OFFSET]
  | 0x900 => [HALT_DISC]
  | 0x904 => [HALT_A, HALT_B, HALT_DISC_LATCH, HALT_RUN_BLOCKED]
  | 0x908 => [HALT_MISMATCH]
  | 0x90C => [HALT_LAST_US]
  | _ => []

/-! ## peer delay of trunk t (R336) -/

/-- BAR0 offset of: peer delay of trunk t (R336). -/
def mpdBase (t : Nat) : Nat := 0x100200 + t * 16
def TRUNK_MPD (t : Nat) : Field := fld (mpdBase t + 0x0) 0 32 .ro 0
def TRUNK_ASYM (t : Nat) : Field := fld (mpdBase t + 0x4) 0 32 .rw 0
/-- The fields that overlap the 32-bit word at offset `o` of: peer delay of trunk t (R336). -/
def mpdWord (t : Nat) (o : Nat) : List Field :=
  match o with
  | 0x0 => [TRUNK_MPD t]
  | 0x4 => [TRUNK_ASYM t]
  | _ => []

/-! ## comparator j (R336) -/

/-- BAR0 offset of: comparator j (R336). -/
def cmpBase (j : Nat) : Nat := 0x100800 + j * 32
def CMP_MODE (j : Nat) : Field := fld (cmpBase j + 0x0) 0 2 .rw 0
def CMP_ACTION (j : Nat) : Field := fld (cmpBase j + 0x0) 2 1 .rw 0
def CMP_FIRED (j : Nat) : Field := fld (cmpBase j + 0x0) 3 1 .w1c 0
def CMP_OWNER (j : Nat) : Field := fld (cmpBase j + 0x0) 4 2 .ro 0
def CMP_TARGET_NS (j : Nat) : Field := fld (cmpBase j + 0x4) 0 30 .rw 0
def CMP_TARGET_SEC (j : Nat) : Field := fld (cmpBase j + 0x8) 0 48 .rw 0
def CMP_PERIOD_NS (j : Nat) : Field := fld (cmpBase j + 0x10) 0 32 .rw 0
/-- The fields that overlap the 32-bit word at offset `o` of: comparator j (R336). -/
def cmpWord (j : Nat) (o : Nat) : List Field :=
  match o with
  | 0x0 => [CMP_MODE j, CMP_ACTION j, CMP_FIRED j, CMP_OWNER j]
  | 0x4 => [CMP_TARGET_NS j]
  | 0x8 => [CMP_TARGET_SEC j]
  | 0xC => [CMP_TARGET_SEC j]
  | 0x10 => [CMP_PERIOD_NS j]
  | _ => []

/-! ## lane n and trunk n (R308) -/

/-- BAR0 offset of: lane n and trunk n (R308). -/
def linkBase (n : Nat) : Nat := 0x200000 + n * 0x1000
def LANE_ENABLE (n : Nat) : Field := fld (linkBase n + 0x0) 0 1 .rw 0
def LANE_TRUNK (n : Nat) : Field := fld (linkBase n + 0x0) 1 7 .rw 0x7F
def ALIGN_MANUAL (n : Nat) : Field := fld (linkBase n + 0x0) 8 1 .rw 0
def PRBS_GEN (n : Nat) : Field := fld (linkBase n + 0x0) 9 3 .rw 0
def PRBS_CHK (n : Nat) : Field := fld (linkBase n + 0x0) 12 3 .rw 0
def PRBS_CLR_BIT (n : Nat) : Field := fld (linkBase n + 0x0) 15 1 .w1s 0
def RETRY_NOW_BIT (n : Nat) : Field := fld (linkBase n + 0x0) 16 1 .w1s 0
def LANE_STATE (n : Nat) : Field := fld (linkBase n + 0x4) 0 4 .ro 0
def SIG_DET (n : Nat) : Field := fld (linkBase n + 0x4) 4 1 .ro 0
def SYM_LOCK (n : Nat) : Field := fld (linkBase n + 0x4) 5 1 .ro 0
def FLIT_LOCK (n : Nat) : Field := fld (linkBase n + 0x4) 6 1 .ro 0
def NO_PARTNER (n : Nat) : Field := fld (linkBase n + 0x4) 7 1 .w1c 0
def MISWIRED (n : Nat) : Field := fld (linkBase n + 0x4) 8 1 .w1c 0
def LANE_FEC_ON (n : Nat) : Field := fld (linkBase n + 0x4) 9 1 .ro 0
def LANE_LOGICAL (n : Nat) : Field := fld (linkBase n + 0x4) 10 4 .ro 0
def ATTEMPTS (n : Nat) : Field := fld (linkBase n + 0x4) 14 5 .ro 0
def P_LANE (n : Nat) : Field := fld (linkBase n + 0x8) 0 7 .ro 0
def P_TRUNK (n : Nat) : Field := fld (linkBase n + 0x8) 7 7 .ro 0
def P_LOGICAL (n : Nat) : Field := fld (linkBase n + 0x8) 14 4 .ro 0
def PRBS_ERR (n : Nat) : Field := fld (linkBase n + 0x10) 0 48 .ro 0
def PRBS_BITS (n : Nat) : Field := fld (linkBase n + 0x18) 0 48 .ro 0
def CRC_ERR (n : Nat) : Field := fld (linkBase n + 0x20) 0 32 .rc 0
def STUFF_ERR (n : Nat) : Field := fld (linkBase n + 0x24) 0 32 .rc 0
def REPLAY_COUNT (n : Nat) : Field := fld (linkBase n + 0x28) 0 32 .rc 0
def FEC_CORR (n : Nat) : Field := fld (linkBase n + 0x2C) 0 32 .rc 0
def FEC_UNCORR (n : Nat) : Field := fld (linkBase n + 0x30) 0 32 .rc 0
def ALIGN_GOOD (n : Nat) : Field := fld (linkBase n + 0x34) 0 5 .ro 0
def FEC_REQ (n : Nat) : Field := fld (linkBase n + 0x800) 0 1 .rw 0
def MIN_LANES_M1 (n : Nat) : Field := fld (linkBase n + 0x800) 1 4 .rw 0
def REJOIN_AUTO (n : Nat) : Field := fld (linkBase n + 0x800) 5 1 .rw 0
def LSTATE (n : Nat) : Field := fld (linkBase n + 0x804) 0 3 .ro 0
def TRUNK_FEC_ON (n : Nat) : Field := fld (linkBase n + 0x804) 3 1 .ro 0
def ACTIVE_LANES (n : Nat) : Field := fld (linkBase n + 0x804) 4 5 .ro 0
def ACTIVE_MASK (n : Nat) : Field := fld (linkBase n + 0x804) 16 16 .ro 0
def RECOVER_COUNT (n : Nat) : Field := fld (linkBase n + 0x808) 0 32 .rc 0
def LAST_RECOVER (n : Nat) : Field := fld (linkBase n + 0x80C) 0 32 .ro 0
def MAX_RECOVER (n : Nat) : Field := fld (linkBase n + 0x810) 0 32 .rc 0
def LINK_DOWN_COUNT (n : Nat) : Field := fld (linkBase n + 0x814) 0 32 .rc 0
def TRUNK_DISCARD (n : Nat) : Field := fld (linkBase n + 0x818) 0 32 .rc 0
/-- The fields that overlap the 32-bit word at offset `o` of: lane n and trunk n (R308). -/
def linkWord (n : Nat) (o : Nat) : List Field :=
  match o with
  | 0x0 => [LANE_ENABLE n, LANE_TRUNK n, ALIGN_MANUAL n, PRBS_GEN n, PRBS_CHK n, PRBS_CLR_BIT n, RETRY_NOW_BIT n]
  | 0x4 => [LANE_STATE n, SIG_DET n, SYM_LOCK n, FLIT_LOCK n, NO_PARTNER n, MISWIRED n, LANE_FEC_ON n, LANE_LOGICAL n, ATTEMPTS n]
  | 0x8 => [P_LANE n, P_TRUNK n, P_LOGICAL n]
  | 0x10 => [PRBS_ERR n]
  | 0x14 => [PRBS_ERR n]
  | 0x18 => [PRBS_BITS n]
  | 0x1C => [PRBS_BITS n]
  | 0x20 => [CRC_ERR n]
  | 0x24 => [STUFF_ERR n]
  | 0x28 => [REPLAY_COUNT n]
  | 0x2C => [FEC_CORR n]
  | 0x30 => [FEC_UNCORR n]
  | 0x34 => [ALIGN_GOOD n]
  | 0x800 => [FEC_REQ n, MIN_LANES_M1 n, REJOIN_AUTO n]
  | 0x804 => [LSTATE n, TRUNK_FEC_ON n, ACTIVE_LANES n, ACTIVE_MASK n]
  | 0x808 => [RECOVER_COUNT n]
  | 0x80C => [LAST_RECOVER n]
  | 0x810 => [MAX_RECOVER n]
  | 0x814 => [LINK_DOWN_COUNT n]
  | 0x818 => [TRUNK_DISCARD n]
  | _ => []

/-! ## queue block q (R366) -/

/-- BAR0 offset of: queue block q (R366). -/
def queueBase (q : Nat) : Nat := 0x400000 + q * 64
def Q_ENABLE (q : Nat) : Field := fld (queueBase q + 0x0) 0 1 .rw 0
def Q_DIR (q : Nat) : Field := fld (queueBase q + 0x0) 1 1 .ro (if q < 16384 then 0 else 1)
def Q_PARTITION (q : Nat) : Field := fld (queueBase q + 0x0) 2 4 .rw 0
def Q_WIDTH_M1 (q : Nat) : Field := fld (queueBase q + 0x0) 6 8 .rw 0
def Q_SINK (q : Nat) : Field := fld (queueBase q + 0x0) 14 1 .rw 0
def Q_LATE_EV (q : Nat) : Field := fld (queueBase q + 0x0) 15 1 .rw 0
def Q_HRING_LOG2 (q : Nat) : Field := fld (queueBase q + 0x0) 16 4 .rw 0
def Q_WB_LOG2 (q : Nat) : Field := fld (queueBase q + 0x0) 20 4 .rw 0
def Q_HRING_EN (q : Nat) : Field := fld (queueBase q + 0x0) 24 1 .rw 0
def Q_DB_ERR (q : Nat) : Field := fld (queueBase q + 0x4) 0 1 .w1c 0
def Q_CFG_REFUSED (q : Nat) : Field := fld (queueBase q + 0x4) 1 1 .w1c 0
def Q_CRC_ERR (q : Nat) : Field := fld (queueBase q + 0x4) 2 1 .w1c 0
def Q_ALIVE_ERR (q : Nat) : Field := fld (queueBase q + 0x4) 3 1 .w1c 0
def Q_LATE (q : Nat) : Field := fld (queueBase q + 0x4) 4 1 .w1c 0
def Q_IDLE (q : Nat) : Field := fld (queueBase q + 0x4) 5 1 .ro 1
def Q_REMOTE_DROP (q : Nat) : Field := fld (queueBase q + 0x4) 6 1 .w1c 0
def Q_STACK (q : Nat) : Field := fld (queueBase q + 0x8) 0 2 .rw 0
def Q_BASE_LINE (q : Nat) : Field := fld (queueBase q + 0x8) 2 30 .rw 0
def Q_SPILL_LOG2 (q : Nat) : Field := fld (queueBase q + 0x8) 32 5 .rw 0
def Q_HRING_ADDR (q : Nat) : Field := fld (queueBase q + 0x10) 12 52 .rw 0
def Q_WB_ADDR (q : Nat) : Field := fld (queueBase q + 0x18) 3 61 .rw 0
def Q_RDEV (q : Nat) : Field := fld (queueBase q + 0x20) 0 9 .rw 0
def Q_RQ (q : Nat) : Field := fld (queueBase q + 0x20) 9 14 .rw 0
def Q_RDELAY (q : Nat) : Field := fld (queueBase q + 0x20) 23 16 .rw 0
def Q_RCAP (q : Nat) : Field := fld (queueBase q + 0x20) 39 25 .rw 0
def Q_EV_THRESH (q : Nat) : Field := fld (queueBase q + 0x28) 0 16 .rw 0
def Q_EV_TIMER (q : Nat) : Field := fld (queueBase q + 0x28) 16 16 .rw 0
def Q_DEPTH (q : Nat) : Field := fld (queueBase q + 0x2C) 0 32 .ro 0
def Q_PROD (q : Nat) : Field := fld (queueBase q + 0x30) 0 32 .ro 0
def Q_CONS_FETCHED (q : Nat) : Field := fld (queueBase q + 0x34) 0 32 .ro 0
/-- The fields that overlap the 32-bit word at offset `o` of: queue block q (R366). -/
def queueWord (q : Nat) (o : Nat) : List Field :=
  match o with
  | 0x0 => [Q_ENABLE q, Q_DIR q, Q_PARTITION q, Q_WIDTH_M1 q, Q_SINK q, Q_LATE_EV q, Q_HRING_LOG2 q, Q_WB_LOG2 q, Q_HRING_EN q]
  | 0x4 => [Q_DB_ERR q, Q_CFG_REFUSED q, Q_CRC_ERR q, Q_ALIVE_ERR q, Q_LATE q, Q_IDLE q, Q_REMOTE_DROP q]
  | 0x8 => [Q_STACK q, Q_BASE_LINE q]
  | 0xC => [Q_SPILL_LOG2 q]
  | 0x10 => [Q_HRING_ADDR q]
  | 0x14 => [Q_HRING_ADDR q]
  | 0x18 => [Q_WB_ADDR q]
  | 0x1C => [Q_WB_ADDR q]
  | 0x20 => [Q_RDEV q, Q_RQ q, Q_RDELAY q]
  | 0x24 => [Q_RDELAY q, Q_RCAP q]
  | 0x28 => [Q_EV_THRESH q, Q_EV_TIMER q]
  | 0x2C => [Q_DEPTH q]
  | 0x30 => [Q_PROD q]
  | 0x34 => [Q_CONS_FETCHED q]
  | _ => []

/-! ## queue counters q (R366) -/

/-- BAR0 offset of: queue counters q (R366). -/
def qcntBase (q : Nat) : Nat := 0x600000 + q * 32
def QC_RECORDS (q : Nat) : Field := fld (qcntBase q + 0x0) 0 64 .rc 0
def QC_WAIT_NS_SUM (q : Nat) : Field := fld (qcntBase q + 0x8) 0 64 .rc 0
def QC_MAX_DEPTH (q : Nat) : Field := fld (qcntBase q + 0x10) 0 32 .rc 0
def QC_SPILLED (q : Nat) : Field := fld (qcntBase q + 0x14) 0 32 .rc 0
def QC_DROPPED (q : Nat) : Field := fld (qcntBase q + 0x18) 0 32 .rc 0
def QC_MAX_WAIT_NS (q : Nat) : Field := fld (qcntBase q + 0x1C) 0 32 .rc 0
/-- The fields that overlap the 32-bit word at offset `o` of: queue counters q (R366). -/
def qcntWord (q : Nat) (o : Nat) : List Field :=
  match o with
  | 0x0 => [QC_RECORDS q]
  | 0x4 => [QC_RECORDS q]
  | 0x8 => [QC_WAIT_NS_SUM q]
  | 0xC => [QC_WAIT_NS_SUM q]
  | 0x10 => [QC_MAX_DEPTH q]
  | 0x14 => [QC_SPILLED q]
  | 0x18 => [QC_DROPPED q]
  | 0x1C => [QC_MAX_WAIT_NS q]
  | _ => []

/-! ## port block i (R366) -/

/-- BAR0 offset of: port block i (R366). -/
def portBase (i : Nat) : Nat := 0x700000 + i * 32
def P_BOUND (i : Nat) : Field := fld (portBase i + 0x0) 0 1 .ro 0
def P_DIR (i : Nat) : Field := fld (portBase i + 0x0) 1 1 .ro 0
def P_POLICY (i : Nat) : Field := fld (portBase i + 0x0) 2 1 .ro 0
def P_QCOUNT_M1 (i : Nat) : Field := fld (portBase i + 0x0) 3 3 .ro 0
def P_QBASE (i : Nat) : Field := fld (portBase i + 0x0) 6 15 .ro 0
def P_OWNER (i : Nat) : Field := fld (portBase i + 0x0) 21 4 .ro 0
def P_OWNER_HALF (i : Nat) : Field := fld (portBase i + 0x0) 25 1 .ro 0
def P_VALID (i : Nat) : Field := fld (portBase i + 0x4) 0 1 .ro 0
def P_FULL (i : Nat) : Field := fld (portBase i + 0x4) 1 1 .ro 0
def P_STAGED (i : Nat) : Field := fld (portBase i + 0x4) 2 1 .ro 0
def P_POPS (i : Nat) : Field := fld (portBase i + 0x8) 0 32 .rc 0
def P_PUSHES (i : Nat) : Field := fld (portBase i + 0xC) 0 32 .rc 0
def P_PUSH_REFUSED (i : Nat) : Field := fld (portBase i + 0x10) 0 32 .rc 0
def P_HOLD_NS (i : Nat) : Field := fld (portBase i + 0x14) 0 32 .rc 0
def P_VALID_CYCLES (i : Nat) : Field := fld (portBase i + 0x18) 0 32 .rc 0
/-- The fields that overlap the 32-bit word at offset `o` of: port block i (R366). -/
def portWord (i : Nat) (o : Nat) : List Field :=
  match o with
  | 0x0 => [P_BOUND i, P_DIR i, P_POLICY i, P_QCOUNT_M1 i, P_QBASE i, P_OWNER i, P_OWNER_HALF i]
  | 0x4 => [P_VALID i, P_FULL i, P_STAGED i]
  | 0x8 => [P_POPS i]
  | 0xC => [P_PUSHES i]
  | 0x10 => [P_PUSH_REFUSED i]
  | 0x14 => [P_HOLD_NS i]
  | 0x18 => [P_VALID_CYCLES i]
  | _ => []

/-! ## flow block f (R366) -/

/-- BAR0 offset of: flow block f (R366). -/
def flowBase (f : Nat) : Nat := 0x710000 + f * 16
def F_QBASE (f : Nat) : Field := fld (flowBase f + 0x0) 0 15 .rw 0
def F_COUNT_M1 (f : Nat) : Field := fld (flowBase f + 0x0) 15 4 .rw 0
def F_ENABLE (f : Nat) : Field := fld (flowBase f + 0x0) 19 1 .rw 0
def F_NEXT (f : Nat) : Field := fld (flowBase f + 0x4) 0 16 .rw 0
def F_DUP (f : Nat) : Field := fld (flowBase f + 0x8) 0 32 .rc 0
/-- The fields that overlap the 32-bit word at offset `o` of: flow block f (R366). -/
def flowWord (f : Nat) (o : Nat) : List Field :=
  match o with
  | 0x0 => [F_QBASE f, F_COUNT_M1 f, F_ENABLE f]
  | 0x4 => [F_NEXT f]
  | 0x8 => [F_DUP f]
  | _ => []

/-! ## engine globals (R366) -/

/-- BAR0 offset of: engine globals (R366). -/
def engBase : Nat := 0x720000
def DMA_TAGS_USED : Field := fld (engBase + 0x0) 0 14 .ro 0
def DB_REJECT : Field := fld (engBase + 0x4) 0 32 .rc 0
/-- The fields that overlap the 32-bit word at offset `o` of: engine globals (R366). -/
def engWord (o : Nat) : List Field :=
  match o with
  | 0x0 => [DMA_TAGS_USED]
  | 0x4 => [DB_REJECT]
  | _ => []

/-! ## BAR4_BASE of function f, stack st (R366) -/

/-- BAR0 offset of: BAR4_BASE of function f, stack st (R366). -/
def bar4baseBase (f st : Nat) : Nat := 0x720100 + f * 32 + st * 8
def BAR4_BASE (f st : Nat) : Field := fld (bar4baseBase f st + 0x0) 0 30 .rw 0
/-- The fields that overlap the 32-bit word at offset `o` of: BAR4_BASE of function f, stack st (R366). -/
def bar4baseWord (f st : Nat) (o : Nat) : List Field :=
  match o with
  | 0x0 => [BAR4_BASE f st]
  | _ => []

/-! ## BAR4_ERR of function f (R366) -/

/-- BAR0 offset of: BAR4_ERR of function f (R366). -/
def bar4errBase (f : Nat) : Nat := 0x720400 + f * 4
def BAR4_ERR (f : Nat) : Field := fld (bar4errBase f + 0x0) 0 2 .rc 0
/-- The fields that overlap the 32-bit word at offset `o` of: BAR4_ERR of function f (R366). -/
def bar4errWord (f : Nat) (o : Nat) : List Field :=
  match o with
  | 0x0 => [BAR4_ERR f]
  | _ => []

/-! ## DLOG block of partition p (R366) -/

/-- BAR0 offset of: DLOG block of partition p (R366). -/
def dlogBase (p : Nat) : Nat := 0x721000 + p * 32
def DLOG_STACK (p : Nat) : Field := fld (dlogBase p + 0x0) 0 2 .rw 0
def DLOG_BASE_LINE (p : Nat) : Field := fld (dlogBase p + 0x0) 2 30 .rw 0
def DLOG_LOG2 (p : Nat) : Field := fld (dlogBase p + 0x0) 32 5 .rw 0
def DLOG_PROD (p : Nat) : Field := fld (dlogBase p + 0x8) 0 64 .ro 0
def DLOG_CONS (p : Nat) : Field := fld (dlogBase p + 0x10) 0 64 .rw 0
/-- The fields that overlap the 32-bit word at offset `o` of: DLOG block of partition p (R366). -/
def dlogWord (p : Nat) (o : Nat) : List Field :=
  match o with
  | 0x0 => [DLOG_STACK p, DLOG_BASE_LINE p]
  | 0x4 => [DLOG_LOG2 p]
  | 0x8 => [DLOG_PROD p]
  | 0xC => [DLOG_PROD p]
  | 0x10 => [DLOG_CONS p]
  | 0x14 => [DLOG_CONS p]
  | _ => []

/-! ## check unit u (R366) -/

/-- BAR0 offset of: check unit u (R366). -/
def crcBase (u : Nat) : Nat := 0xA00000 + u * 64
def U_ENABLE (u : Nat) : Field := fld (crcBase u + 0x0) 0 1 .rw 0
def U_WIDTH_M1 (u : Nat) : Field := fld (crcBase u + 0x0) 1 6 .rw 7
def U_REFIN (u : Nat) : Field := fld (crcBase u + 0x0) 7 1 .rw 0
def U_REFOUT (u : Nat) : Field := fld (crcBase u + 0x0) 8 1 .rw 0
def U_QUEUE (u : Nat) : Field := fld (crcBase u + 0x0) 9 15 .rw 0
def U_ACTION (u : Nat) : Field := fld (crcBase u + 0x0) 24 1 .rw 0
def U_ALIVE_EN (u : Nat) : Field := fld (crcBase u + 0x0) 25 1 .rw 0
def U_POLY (u : Nat) : Field := fld (crcBase u + 0x8) 0 64 .rw 0
def U_INIT (u : Nat) : Field := fld (crcBase u + 0x10) 0 64 .rw 0
def U_XOROUT (u : Nat) : Field := fld (crcBase u + 0x18) 0 64 .rw 0
def U_CRC_ERR (u : Nat) : Field := fld (crcBase u + 0x20) 0 32 .rc 0
def U_ALIVE_REPEAT (u : Nat) : Field := fld (crcBase u + 0x24) 0 32 .rc 0
def U_ALIVE_GAP (u : Nat) : Field := fld (crcBase u + 0x28) 0 32 .rc 0
def U_REBIND_REFUSED (u : Nat) : Field := fld (crcBase u + 0x2C) 0 1 .w1c 0
def U_LAST_ALIVE (u : Nat) : Field := fld (crcBase u + 0x2C) 8 8 .ro 0
/-- The fields that overlap the 32-bit word at offset `o` of: check unit u (R366). -/
def crcWord (u : Nat) (o : Nat) : List Field :=
  match o with
  | 0x0 => [U_ENABLE u, U_WIDTH_M1 u, U_REFIN u, U_REFOUT u, U_QUEUE u, U_ACTION u, U_ALIVE_EN u]
  | 0x8 => [U_POLY u]
  | 0xC => [U_POLY u]
  | 0x10 => [U_INIT u]
  | 0x14 => [U_INIT u]
  | 0x18 => [U_XOROUT u]
  | 0x1C => [U_XOROUT u]
  | 0x20 => [U_CRC_ERR u]
  | 0x24 => [U_ALIVE_REPEAT u]
  | 0x28 => [U_ALIVE_GAP u]
  | 0x2C => [U_REBIND_REFUSED u, U_LAST_ALIVE u]
  | _ => []

/-! ## capture (R394) -/

/-- BAR0 offset of: capture (R394). -/
def capBase : Nat := 0x800000
def ACQ_ARM_BIT : Field := fld (capBase + 0x0) 0 1 .w1s 0
def ACQ_DISARM_BIT : Field := fld (capBase + 0x0) 1 1 .w1s 0
def ACQ_FORCE_BIT : Field := fld (capBase + 0x0) 2 1 .w1s 0
def ACQ_POLICY : Field := fld (capBase + 0x0) 3 1 .rw 0
def DEC_MAX : Field := fld (capBase + 0x0) 4 4 .rw 4
def ACQ_ARM_AT_BIT : Field := fld (capBase + 0x0) 8 1 .w1s 0
def ACQ_OWNER : Field := fld (capBase + 0x0) 9 4 .rw 0
def ASTATE : Field := fld (capBase + 0x4) 0 3 .ro 0
def SSTATE : Field := fld (capBase + 0x4) 3 4 .ro 0
def ACQ_K : Field := fld (capBase + 0x4) 7 4 .ro 0
def TRIGGERED : Field := fld (capBase + 0x4) 11 1 .ro 0
def ACQ_AUTO_FORCED : Field := fld (capBase + 0x4) 12 1 .ro 0
def ACQ_INTERRUPTED : Field := fld (capBase + 0x4) 13 1 .w1c 0
def ACQ_REFUSED : Field := fld (capBase + 0x4) 14 1 .w1c 0
def ACQ_PRE : Field := fld (capBase + 0x8) 0 32 .rw 0
def ACQ_POST : Field := fld (capBase + 0xC) 0 32 .rw 0
def ACQ_AUTO : Field := fld (capBase + 0x10) 0 32 .rw 0
def ARM_CYCLE : Field := fld (capBase + 0x18) 0 48 .rw 0
def TRIG_CYCLE : Field := fld (capBase + 0x60) 0 48 .ro 0
def TRIG_INDEX : Field := fld (capBase + 0x68) 0 32 .ro 0
def PRE_VALID : Field := fld (capBase + 0x6C) 0 32 .ro 0
def RECORDS_WRITTEN : Field := fld (capBase + 0x70) 0 64 .ro 0
def RING_RECORDS : Field := fld (capBase + 0x78) 0 32 .ro 0
def ACQ_THROTTLE : Field := fld (capBase + 0x90) 0 32 .rc 0
def TRIG_NOW : Field := fld (capBase + 0x800) 0 64 .ro 0
/-- The fields that overlap the 32-bit word at offset `o` of: capture (R394). -/
def capWord (o : Nat) : List Field :=
  match o with
  | 0x0 => [ACQ_ARM_BIT, ACQ_DISARM_BIT, ACQ_FORCE_BIT, ACQ_POLICY, DEC_MAX, ACQ_ARM_AT_BIT, ACQ_OWNER]
  | 0x4 => [ASTATE, SSTATE, ACQ_K, TRIGGERED, ACQ_AUTO_FORCED, ACQ_INTERRUPTED, ACQ_REFUSED]
  | 0x8 => [ACQ_PRE]
  | 0xC => [ACQ_POST]
  | 0x10 => [ACQ_AUTO]
  | 0x18 => [ARM_CYCLE]
  | 0x1C => [ARM_CYCLE]
  | 0x60 => [TRIG_CYCLE]
  | 0x64 => [TRIG_CYCLE]
  | 0x68 => [TRIG_INDEX]
  | 0x6C => [PRE_VALID]
  | 0x70 => [RECORDS_WRITTEN]
  | 0x74 => [RECORDS_WRITTEN]
  | 0x78 => [RING_RECORDS]
  | 0x90 => [ACQ_THROTTLE]
  | 0x800 => [TRIG_NOW]
  | 0x804 => [TRIG_NOW]
  | _ => []

/-! ## capture ring of stack d (R394) -/

/-- BAR0 offset of: capture ring of stack d (R394). -/
def capstBase (d : Nat) : Nat := 0x800020 + d * 16
def CAP_BASE_LINE (d : Nat) : Field := fld (capstBase d + 0x0) 0 30 .rw 0
def CAP_LINES (d : Nat) : Field := fld (capstBase d + 0x8) 0 30 .rw 0
/-- The fields that overlap the 32-bit word at offset `o` of: capture ring of stack d (R394). -/
def capstWord (d : Nat) (o : Nat) : List Field :=
  match o with
  | 0x0 => [CAP_BASE_LINE d]
  | 0x8 => [CAP_LINES d]
  | _ => []

/-! ## STAGE_LEVEL of die d (R394) -/

/-- BAR0 offset of: STAGE_LEVEL of die d (R394). -/
def stageBase (d : Nat) : Nat := 0x800080 + d * 4
def STAGE_LEVEL (d : Nat) : Field := fld (stageBase d + 0x0) 0 16 .ro 0
/-- The fields that overlap the 32-bit word at offset `o` of: STAGE_LEVEL of die d (R394). -/
def stageWord (d : Nat) (o : Nat) : List Field :=
  match o with
  | 0x0 => [STAGE_LEVEL d]
  | _ => []

/-! ## sequencer state j (R394) -/

/-- BAR0 offset of: sequencer state j (R394). -/
def seqstBase (j : Nat) : Nat := 0x800100 + j * 64
def ST_A_MASK (j : Nat) : Field := fld (seqstBase j + 0x0) 0 64 .rw 0
def ST_A_VAL (j : Nat) : Field := fld (seqstBase j + 0x8) 0 64 .rw 0
def ST_B_MASK (j : Nat) : Field := fld (seqstBase j + 0x10) 0 64 .rw 0
def ST_B_VAL (j : Nat) : Field := fld (seqstBase j + 0x18) 0 64 .rw 0
def ST_A_EN (j : Nat) : Field := fld (seqstBase j + 0x20) 0 1 .rw 0
def ST_A_MODE (j : Nat) : Field := fld (seqstBase j + 0x20) 1 1 .rw 0
def ST_A_NEXT (j : Nat) : Field := fld (seqstBase j + 0x20) 2 4 .rw 0
def ST_A_TRIGGER (j : Nat) : Field := fld (seqstBase j + 0x20) 6 1 .rw 0
def ST_A_COUNT_M1 (j : Nat) : Field := fld (seqstBase j + 0x20) 7 16 .rw 0
def ST_B_EN (j : Nat) : Field := fld (seqstBase j + 0x24) 0 1 .rw 0
def ST_B_MODE (j : Nat) : Field := fld (seqstBase j + 0x24) 1 1 .rw 0
def ST_B_NEXT (j : Nat) : Field := fld (seqstBase j + 0x24) 2 4 .rw 0
def ST_B_TRIGGER (j : Nat) : Field := fld (seqstBase j + 0x24) 6 1 .rw 0
def ST_B_COUNT_M1 (j : Nat) : Field := fld (seqstBase j + 0x24) 7 16 .rw 0
def ST_A_COUNT (j : Nat) : Field := fld (seqstBase j + 0x28) 0 16 .ro 0
def ST_B_COUNT (j : Nat) : Field := fld (seqstBase j + 0x2C) 0 16 .ro 0
/-- The fields that overlap the 32-bit word at offset `o` of: sequencer state j (R394). -/
def seqstWord (j : Nat) (o : Nat) : List Field :=
  match o with
  | 0x0 => [ST_A_MASK j]
  | 0x4 => [ST_A_MASK j]
  | 0x8 => [ST_A_VAL j]
  | 0xC => [ST_A_VAL j]
  | 0x10 => [ST_B_MASK j]
  | 0x14 => [ST_B_MASK j]
  | 0x18 => [ST_B_VAL j]
  | 0x1C => [ST_B_VAL j]
  | 0x20 => [ST_A_EN j, ST_A_MODE j, ST_A_NEXT j, ST_A_TRIGGER j, ST_A_COUNT_M1 j]
  | 0x24 => [ST_B_EN j, ST_B_MODE j, ST_B_NEXT j, ST_B_TRIGGER j, ST_B_COUNT_M1 j]
  | 0x28 => [ST_A_COUNT j]
  | 0x2C => [ST_B_COUNT j]
  | _ => []

/-! ## mask test m (R394) -/

/-- BAR0 offset of: mask test m (R394). -/
def maskBase (m : Nat) : Nat := 0x800600 + m * 32
def MT_EN (m : Nat) : Field := fld (maskBase m + 0x0) 0 1 .rw 0
def MT_STOP (m : Nat) : Field := fld (maskBase m + 0x0) 1 1 .rw 0
def MT_SRC (m : Nat) : Field := fld (maskBase m + 0x0) 2 1 .rw 0
def MT_DIE (m : Nat) : Field := fld (maskBase m + 0x0) 3 2 .rw 0
def MT_WORD (m : Nat) : Field := fld (maskBase m + 0x0) 5 8 .rw 0
def MT_VIOL_COUNT (m : Nat) : Field := fld (maskBase m + 0x4) 0 32 .rc 0
def MT_EXPECT (m : Nat) : Field := fld (maskBase m + 0x8) 0 64 .rw 0
def MT_CARE (m : Nat) : Field := fld (maskBase m + 0x10) 0 64 .rw 0
def MT_FIRST_VIOL (m : Nat) : Field := fld (maskBase m + 0x18) 0 48 .ro 0
def MT_FV_VALID (m : Nat) : Field := fld (maskBase m + 0x18) 63 1 .w1c 0
/-- The fields that overlap the 32-bit word at offset `o` of: mask test m (R394). -/
def maskWord (m : Nat) (o : Nat) : List Field :=
  match o with
  | 0x0 => [MT_EN m, MT_STOP m, MT_SRC m, MT_DIE m, MT_WORD m]
  | 0x4 => [MT_VIOL_COUNT m]
  | 0x8 => [MT_EXPECT m]
  | 0xC => [MT_EXPECT m]
  | 0x10 => [MT_CARE m]
  | 0x14 => [MT_CARE m]
  | 0x18 => [MT_FIRST_VIOL m]
  | 0x1C => [MT_FIRST_VIOL m, MT_FV_VALID m]
  | _ => []

/-! ## trace (R395) -/

/-- BAR0 offset of: trace (R395). -/
def trcBase : Nat := 0x900000
def TRC_EN : Field := fld (trcBase + 0x0) 0 1 .rw 0
def TRC_SINK : Field := fld (trcBase + 0x0) 1 2 .rw 0
def TRC_STOP_FULL : Field := fld (trcBase + 0x0) 3 1 .rw 0
def TRC_OWNER : Field := fld (trcBase + 0x0) 4 4 .rw 0
def TRC_SEQ_LEVEL : Field := fld (trcBase + 0x0) 8 2 .rw 0
def TRC_MULE_EN : Field := fld (trcBase + 0x0) 10 4 .rw 0
def TRC_TE_EN : Field := fld (trcBase + 0x0) 14 1 .rw 0
def TRC_LINK_EN : Field := fld (trcBase + 0x0) 15 1 .rw 0
def TRC_SYNC_PERIOD : Field := fld (trcBase + 0x0) 16 4 .rw 0
def TRC_ACTIVE : Field := fld (trcBase + 0x4) 0 1 .ro 0
def TRC_FULL : Field := fld (trcBase + 0x4) 1 1 .w1c 0
def TRC_SYNC_FORCED : Field := fld (trcBase + 0x4) 2 1 .ro 0
def TRC_OVERFLOW_BIT : Field := fld (trcBase + 0x4) 3 1 .w1c 0
def TRC_LOST : Field := fld (trcBase + 0x8) 0 32 .rc 0
def TRC_WPTR : Field := fld (trcBase + 0x10) 0 64 .ro 0
def TRC_HBM_STACK : Field := fld (trcBase + 0x20) 0 2 .rw 0
def TRC_HBM_BASE : Field := fld (trcBase + 0x20) 2 30 .rw 0
def TRC_HBM_LINES : Field := fld (trcBase + 0x20) 32 32 .rw 0
def TRC_HRING_ADDR : Field := fld (trcBase + 0x30) 12 52 .rw 0
def TRC_HWB_ADDR : Field := fld (trcBase + 0x38) 3 61 .rw 0
def TRC_HLOG2 : Field := fld (trcBase + 0x40) 0 5 .rw 0
def TRC_HCONS : Field := fld (trcBase + 0x48) 0 64 .rw 0
def TRC_WIN : Field := fld (trcBase + 0x50) 0 4 .rw 0
def LINK_MASK0 : Field := fld (trcBase + 0x200) 0 32 .rw 0
def LINK_MASK1 : Field := fld (trcBase + 0x204) 0 32 .rw 0
def LINK_MASK2 : Field := fld (trcBase + 0x208) 0 32 .rw 0
/-- The fields that overlap the 32-bit word at offset `o` of: trace (R395). -/
def trcWord (o : Nat) : List Field :=
  match o with
  | 0x0 => [TRC_EN, TRC_SINK, TRC_STOP_FULL, TRC_OWNER, TRC_SEQ_LEVEL, TRC_MULE_EN, TRC_TE_EN, TRC_LINK_EN, TRC_SYNC_PERIOD]
  | 0x4 => [TRC_ACTIVE, TRC_FULL, TRC_SYNC_FORCED, TRC_OVERFLOW_BIT]
  | 0x8 => [TRC_LOST]
  | 0x10 => [TRC_WPTR]
  | 0x14 => [TRC_WPTR]
  | 0x20 => [TRC_HBM_STACK, TRC_HBM_BASE]
  | 0x24 => [TRC_HBM_LINES]
  | 0x30 => [TRC_HRING_ADDR]
  | 0x34 => [TRC_HRING_ADDR]
  | 0x38 => [TRC_HWB_ADDR]
  | 0x3C => [TRC_HWB_ADDR]
  | 0x40 => [TRC_HLOG2]
  | 0x48 => [TRC_HCONS]
  | 0x4C => [TRC_HCONS]
  | 0x50 => [TRC_WIN]
  | 0x200 => [LINK_MASK0]
  | 0x204 => [LINK_MASK1]
  | 0x208 => [LINK_MASK2]
  | _ => []

/-! ## select list of die d, entry k (R395) -/

/-- BAR0 offset of: select list of die d, entry k (R395). -/
def selBase (d k : Nat) : Nat := 0x900100 + d * 32 + k * 2
def SEL_PC (d k : Nat) : Field := fld (selBase d k + 0x0) 0 9 .rw 0
def SEL_HALF (d k : Nat) : Field := fld (selBase d k + 0x0) 9 1 .rw 0
def SEL_VALID (d k : Nat) : Field := fld (selBase d k + 0x0) 15 1 .rw 0
/-- The fields that overlap the 32-bit word at offset `o` of: select list of die d, entry k (R395). -/
def selWord (d k : Nat) (o : Nat) : List Field :=
  match o with
  | 0x0 => [SEL_PC d k, SEL_HALF d k, SEL_VALID d k]
  | _ => []

/-! ## scratchpad control (R500) -/

/-- BAR0 offset of: scratchpad control (R500). -/
def spBase : Nat := 0xB00000
def SP_VIOLATION : Field := fld (spBase + 0x100) 0 32 .rc 0
def SPV_BANK : Field := fld (spBase + 0x104) 0 6 .ro 0
def SPV_REQ : Field := fld (spBase + 0x104) 6 2 .ro 0
def SPV_WRITE : Field := fld (spBase + 0x104) 8 1 .ro 0
def SPV_VALID : Field := fld (spBase + 0x104) 31 1 .w1c 0
def SP_CORR : Field := fld (spBase + 0x108) 0 32 .rc 0
def HOST_ALIAS_BANK : Field := fld (spBase + 0x110) 0 6 .rw 0
def JTAG_ALIAS_BANK : Field := fld (spBase + 0x114) 0 6 .rw 0
/-- The fields that overlap the 32-bit word at offset `o` of: scratchpad control (R500). -/
def spWord (o : Nat) : List Field :=
  match o with
  | 0x100 => [SP_VIOLATION]
  | 0x104 => [SPV_BANK, SPV_REQ, SPV_WRITE, SPV_VALID]
  | 0x108 => [SP_CORR]
  | 0x110 => [HOST_ALIAS_BANK]
  | 0x114 => [JTAG_ALIAS_BANK]
  | _ => []

/-! ## SP_OWNER of bank b (R500) -/

/-- BAR0 offset of: SP_OWNER of bank b (R500). -/
def spownBase (b : Nat) : Nat := 0xB00000 + b * 4
def SP_BANK_OWNER (b : Nat) : Field := fld (spownBase b + 0x0) 0 2 .rw 0
def SP_PENDING (b : Nat) : Field := fld (spownBase b + 0x0) 2 1 .ro 0
/-- The fields that overlap the 32-bit word at offset `o` of: SP_OWNER of bank b (R500). -/
def spownWord (b : Nat) (o : Nat) : List Field :=
  match o with
  | 0x0 => [SP_BANK_OWNER b, SP_PENDING b]
  | _ => []

/-! ## TAF (R417) -/

/-- BAR0 offset of: TAF (R417). -/
def tafBase : Nat := 0xC00000
def FAB_OE : Field := fld (tafBase + 0x0) 0 1 .rw 0
def FB_OE : Field := fld (tafBase + 0x0) 1 1 .rw 0
def FB_EN : Field := fld (tafBase + 0x0) 2 1 .rw 0
def TB_REGION : Field := fld (tafBase + 0x0) 3 4 .rw 0
def TB_RCLK : Field := fld (tafBase + 0x0) 7 2 .rw 0
def TIN_MODE : Field := fld (tafBase + 0x0) 9 1 .rw 0
def OFF_ON_UNCORR : Field := fld (tafBase + 0x0) 10 1 .rw 0
def TAF_CONFIGURED : Field := fld (tafBase + 0x4) 0 1 .ro 0
def TIN_READY : Field := fld (tafBase + 0x4) 1 1 .ro 0
def TAF_CFG_CORR : Field := fld (tafBase + 0x4) 2 1 .w1c 0
def TAF_CFG_UNCORR : Field := fld (tafBase + 0x4) 3 1 .w1c 0
def TAF_MUX_FORCED : Field := fld (tafBase + 0x4) 4 1 .w1c 0
def TOUT_SKIP : Field := fld (tafBase + 0x8) 0 32 .rc 0
def TIN_REFUSED : Field := fld (tafBase + 0xC) 0 32 .rc 0
/-- The fields that overlap the 32-bit word at offset `o` of: TAF (R417). -/
def tafWord (o : Nat) : List Field :=
  match o with
  | 0x0 => [FAB_OE, FB_OE, FB_EN, TB_REGION, TB_RCLK, TIN_MODE, OFF_ON_UNCORR]
  | 0x4 => [TAF_CONFIGURED, TIN_READY, TAF_CFG_CORR, TAF_CFG_UNCORR, TAF_MUX_FORCED]
  | 0x8 => [TOUT_SKIP]
  | 0xC => [TIN_REFUSED]
  | _ => []

/-! ## clock region r (R417) -/

/-- BAR0 offset of: clock region r (R417). -/
def tafregBase (r : Nat) : Nat := 0xC00040 + r * 16
def REGION_DIV (r : Nat) : Field := fld (tafregBase r + 0x0) 0 64 .rw 0
def REGION_SEL (r : Nat) : Field := fld (tafregBase r + 0x8) 0 8 .ro 0
def CLK_OVER (r : Nat) : Field := fld (tafregBase r + 0x8) 8 1 .w1c 0
/-- The fields that overlap the 32-bit word at offset `o` of: clock region r (R417). -/
def tafregWord (r : Nat) (o : Nat) : List Field :=
  match o with
  | 0x0 => [REGION_DIV r]
  | 0x4 => [REGION_DIV r]
  | 0x8 => [REGION_SEL r, CLK_OVER r]
  | _ => []

/-! ## I/O bank b (R417) -/

/-- BAR0 offset of: I/O bank b (R417). -/
def tafbankBase (b : Nat) : Nat := 0xC00200 + b * 4
def BANK_V (b : Nat) : Field := fld (tafbankBase b + 0x0) 0 2 .ro 0
def BANK_PGOOD (b : Nat) : Field := fld (tafbankBase b + 0x0) 2 1 .ro 1
/-- The fields that overlap the 32-bit word at offset `o` of: I/O bank b (R417). -/
def tafbankWord (b : Nat) (o : Nat) : List Field :=
  match o with
  | 0x0 => [BANK_V b, BANK_PGOOD b]
  | _ => []

/-! ## asynchronous FIFO f (R417) -/

/-- BAR0 offset of: asynchronous FIFO f (R417). -/
def taffifoBase (f : Nat) : Nat := 0xC00400 + f * 16
def FIFO_LEVEL (f : Nat) : Field := fld (taffifoBase f + 0x0) 0 32 .ro 0
def FIFO_PUSH_REFUSED (f : Nat) : Field := fld (taffifoBase f + 0x4) 0 32 .rc 0
def FIFO_OVERFLOW (f : Nat) : Field := fld (taffifoBase f + 0x8) 0 32 .rc 0
def FIFO_WORDS (f : Nat) : Field := fld (taffifoBase f + 0xC) 0 32 .rc 0
/-- The fields that overlap the 32-bit word at offset `o` of: asynchronous FIFO f (R417). -/
def taffifoWord (f : Nat) (o : Nat) : List Field :=
  match o with
  | 0x0 => [FIFO_LEVEL f]
  | 0x4 => [FIFO_PUSH_REFUSED f]
  | 0x8 => [FIFO_OVERFLOW f]
  | 0xC => [FIFO_WORDS f]
  | _ => []

/-! ## fall-back block k (R417) -/

/-- BAR0 offset of: fall-back block k (R417). -/
def fbBase (k : Nat) : Nat := 0xC01000 + k * 64
def FB_DIV (k : Nat) : Field := fld (fbBase k + 0x0) 0 16 .rw 0
def FB_ENABLE (k : Nat) : Field := fld (fbBase k + 0x0) 16 1 .rw 0
def FB_I2C_400 (k : Nat) : Field := fld (fbBase k + 0x0) 17 1 .rw 0
def FB_I2C_ADDR (k : Nat) : Field := fld (fbBase k + 0x0) 18 7 .rw 0
def FB_TX_LEVEL (k : Nat) : Field := fld (fbBase k + 0x4) 0 8 .ro 0
def FB_RX_LEVEL (k : Nat) : Field := fld (fbBase k + 0x4) 8 8 .ro 0
def FB_RX_DROP (k : Nat) : Field := fld (fbBase k + 0x4) 16 15 .ro 0
def FB_NAK (k : Nat) : Field := fld (fbBase k + 0x4) 31 1 .ro 0
def FB_DATA (k : Nat) : Field := fld (fbBase k + 0x8) 0 8 .rw 0
/-- The fields that overlap the 32-bit word at offset `o` of: fall-back block k (R417). -/
def fbWord (k : Nat) (o : Nat) : List Field :=
  match o with
  | 0x0 => [FB_DIV k, FB_ENABLE k, FB_I2C_400 k, FB_I2C_ADDR k]
  | 0x4 => [FB_TX_LEVEL k, FB_RX_LEVEL k, FB_RX_DROP k, FB_NAK k]
  | 0x8 => [FB_DATA k]
  | _ => []

/-! ## command ring r (R453) -/

/-- BAR0 offset of: command ring r (R453). -/
def crBase (r : Nat) : Nat := 0x2000000 + r * 0x10000
def CR_ENABLE (r : Nat) : Field := fld (crBase r + 0x0) 0 1 .rw 0
def CR_SQ_LOG2 (r : Nat) : Field := fld (crBase r + 0x0) 1 4 .rw 0
def CR_CQ_LOG2 (r : Nat) : Field := fld (crBase r + 0x0) 5 4 .rw 0
def CR_EV_ALL (r : Nat) : Field := fld (crBase r + 0x0) 9 1 .rw 0
def CR_DMA_ERR (r : Nat) : Field := fld (crBase r + 0x4) 0 1 .w1c 0
def CR_DB_ERR (r : Nat) : Field := fld (crBase r + 0x4) 1 1 .w1c 0
def CR_CFG_REFUSED (r : Nat) : Field := fld (crBase r + 0x4) 2 1 .w1c 0
def CR_HELD (r : Nat) : Field := fld (crBase r + 0x4) 3 1 .ro 0
def CR_SQ_BASE (r : Nat) : Field := fld (crBase r + 0x8) 12 52 .rw 0
def CR_CQ_BASE (r : Nat) : Field := fld (crBase r + 0x10) 12 52 .rw 0
def CR_WB_ADDR (r : Nat) : Field := fld (crBase r + 0x18) 3 61 .rw 0
def CR_SQ_PROD (r : Nat) : Field := fld (crBase r + 0x20) 0 32 .rw 0
def CR_SQ_FETCHED (r : Nat) : Field := fld (crBase r + 0x24) 0 32 .ro 0
def CR_CQ_PROD (r : Nat) : Field := fld (crBase r + 0x28) 0 32 .ro 0
def CR_CQ_CONS (r : Nat) : Field := fld (crBase r + 0x2C) 0 32 .rw 0
def CR_OUTSTANDING (r : Nat) : Field := fld (crBase r + 0x30) 0 7 .ro 0
def CR_REJECTS (r : Nat) : Field := fld (crBase r + 0x34) 0 32 .rc 0
/-- The fields that overlap the 32-bit word at offset `o` of: command ring r (R453). -/
def crWord (r : Nat) (o : Nat) : List Field :=
  match o with
  | 0x0 => [CR_ENABLE r, CR_SQ_LOG2 r, CR_CQ_LOG2 r, CR_EV_ALL r]
  | 0x4 => [CR_DMA_ERR r, CR_DB_ERR r, CR_CFG_REFUSED r, CR_HELD r]
  | 0x8 => [CR_SQ_BASE r]
  | 0xC => [CR_SQ_BASE r]
  | 0x10 => [CR_CQ_BASE r]
  | 0x14 => [CR_CQ_BASE r]
  | 0x18 => [CR_WB_ADDR r]
  | 0x1C => [CR_WB_ADDR r]
  | 0x20 => [CR_SQ_PROD r]
  | 0x24 => [CR_SQ_FETCHED r]
  | 0x28 => [CR_CQ_PROD r]
  | 0x2C => [CR_CQ_CONS r]
  | 0x30 => [CR_OUTSTANDING r]
  | 0x34 => [CR_REJECTS r]
  | _ => []

/-! ## die window d (R147, R501) -/

/-- BAR0 offset of: die window d (R147, R501). -/
def dieBase (d : Nat) : Nat := 0x3000000 + d * 0x400000
def DIE_FENCED (d : Nat) : Field := fld (dieBase d + 0x0) 0 1 .ro 0
def DIE_ALL_GATED (d : Nat) : Field := fld (dieBase d + 0x0) 1 1 .ro 1
def BLOCK_CANCEL (d : Nat) : Field := fld (dieBase d + 0x20000) 0 64 .rc 0
def BLOCK_SKIP (d : Nat) : Field := fld (dieBase d + 0x20008) 0 64 .rc 0
def HOLD_CLOCKS (d : Nat) : Field := fld (dieBase d + 0x20010) 0 64 .rc 0
def NOPROGRESS_COUNT (d : Nat) : Field := fld (dieBase d + 0x20018) 0 32 .ro 0
def HBM_CORR (d : Nat) : Field := fld (dieBase d + 0x30000) 0 32 .rc 0
def HBM_UNCORR (d : Nat) : Field := fld (dieBase d + 0x30004) 0 32 .rc 0
def HBM_TAGS_USED (d : Nat) : Field := fld (dieBase d + 0x30008) 0 14 .ro 0
/-- The fields that overlap the 32-bit word at offset `o` of: die window d (R147, R501). -/
def dieWord (d : Nat) (o : Nat) : List Field :=
  match o with
  | 0x0 => [DIE_FENCED d, DIE_ALL_GATED d]
  | 0x20000 => [BLOCK_CANCEL d]
  | 0x20004 => [BLOCK_CANCEL d]
  | 0x20008 => [BLOCK_SKIP d]
  | 0x2000C => [BLOCK_SKIP d]
  | 0x20010 => [HOLD_CLOCKS d]
  | 0x20014 => [HOLD_CLOCKS d]
  | 0x20018 => [NOPROGRESS_COUNT d]
  | 0x30000 => [HBM_CORR d]
  | 0x30004 => [HBM_UNCORR d]
  | 0x30008 => [HBM_TAGS_USED d]
  | _ => []

/-! ## tile register block of device tile t (R115, R177, R501) -/

/-- BAR0 offset of: tile register block of device tile t (R115, R177, R501). -/
def tileBase (t : Nat) : Nat := 0x3200000 + (t / 32) * 0x400000 + (t % 32) * 0x2000
def TILE_LOADED (t : Nat) : Field := fld (tileBase t + 0x0) 0 1 .ro 0
def TILE_IN_RESET (t : Nat) : Field := fld (tileBase t + 0x0) 1 1 .ro 1
def TILE_GATED (t : Nat) : Field := fld (tileBase t + 0x0) 2 1 .ro 1
def TILE_FENCED (t : Nat) : Field := fld (tileBase t + 0x0) 3 1 .ro 0
def TILE_PARTITION (t : Nat) : Field := fld (tileBase t + 0x0) 4 4 .ro 0
def ASSERT_COUNT (t : Nat) : Field := fld (tileBase t + 0x8) 0 32 .rc 0
def ASSERT_CYCLE (t : Nat) : Field := fld (tileBase t + 0x10) 0 48 .ro 0
def ASSERT_VALID (t : Nat) : Field := fld (tileBase t + 0x10) 63 1 .w1c 0
def ASSERT_LOCATION (t : Nat) : Field := fld (tileBase t + 0x18) 0 64 .ro 0
def CORR_COUNT (t : Nat) : Field := fld (tileBase t + 0x20) 0 32 .rc 0
def LATENT_COUNT (t : Nat) : Field := fld (tileBase t + 0x28) 0 32 .rc 0
def EXCH_DISCARD (t : Nat) : Field := fld (tileBase t + 0x30) 0 32 .rc 0
def EF_SLOT (t : Nat) : Field := fld (tileBase t + 0x400) 0 11 .ro 0
def EF_ENTRY_HI (t : Nat) : Field := fld (tileBase t + 0x400) 11 1 .ro 0
def EF_CLUSTER (t : Nat) : Field := fld (tileBase t + 0x400) 12 4 .ro 0
def EF_ENTRY (t : Nat) : Field := fld (tileBase t + 0x400) 16 12 .ro 0
def EF_KIND (t : Nat) : Field := fld (tileBase t + 0x400) 28 3 .ro 0
def EF_VALID (t : Nat) : Field := fld (tileBase t + 0x400) 31 1 .w1c 0
def ME_ADDR (t : Nat) : Field := fld (tileBase t + 0x410) 0 40 .ro 0
def ME_WRITE (t : Nat) : Field := fld (tileBase t + 0x410) 48 1 .ro 0
def ME_SEQ (t : Nat) : Field := fld (tileBase t + 0x410) 49 6 .ro 0
def ME_PORT (t : Nat) : Field := fld (tileBase t + 0x410) 55 5 .ro 0
def ME_KIND (t : Nat) : Field := fld (tileBase t + 0x410) 60 3 .ro 0
def ME_VALID (t : Nat) : Field := fld (tileBase t + 0x410) 63 1 .w1c 0
/-- The fields that overlap the 32-bit word at offset `o` of: tile register block of device tile t (R115, R177, R501). -/
def tileWord (t : Nat) (o : Nat) : List Field :=
  match o with
  | 0x0 => [TILE_LOADED t, TILE_IN_RESET t, TILE_GATED t, TILE_FENCED t, TILE_PARTITION t]
  | 0x8 => [ASSERT_COUNT t]
  | 0x10 => [ASSERT_CYCLE t]
  | 0x14 => [ASSERT_CYCLE t, ASSERT_VALID t]
  | 0x18 => [ASSERT_LOCATION t]
  | 0x1C => [ASSERT_LOCATION t]
  | 0x20 => [CORR_COUNT t]
  | 0x28 => [LATENT_COUNT t]
  | 0x30 => [EXCH_DISCARD t]
  | 0x400 => [EF_SLOT t, EF_ENTRY_HI t, EF_CLUSTER t, EF_ENTRY t, EF_KIND t, EF_VALID t]
  | 0x410 => [ME_ADDR t]
  | 0x414 => [ME_ADDR t, ME_WRITE t, ME_SEQ t, ME_PORT t, ME_KIND t, ME_VALID t]
  | _ => []

/-! ## MMP configuration block (R152) -/

/-- BAR0 offset of: MMP configuration block (R152). -/
def mmpBase (t p : Nat) : Nat := 0x3201000 + (t / 32) * 0x400000 + (t % 32) * 0x2000 + p * 32
def MMP_BIND (t p : Nat) : Field := fld (mmpBase t p + 0x0) 0 2 .rw 0
def MMP_RO (t p : Nat) : Field := fld (mmpBase t p + 0x0) 2 1 .rw 0
def MMP_WMASK (t p : Nat) : Field := fld (mmpBase t p + 0x0) 3 1 .rw 0
def MMP_OOR_POLICY (t p : Nat) : Field := fld (mmpBase t p + 0x0) 4 1 .rw 0
def MMP_OWNER (t p : Nat) : Field := fld (mmpBase t p + 0x0) 5 4 .rw 0
def MMP_OWNER_HALF (t p : Nat) : Field := fld (mmpBase t p + 0x0) 9 1 .rw 0
def MMP_AWIDTH_M1 (t p : Nat) : Field := fld (mmpBase t p + 0x0) 10 6 .rw 0
def MMP_DWIDTH_M1 (t p : Nat) : Field := fld (mmpBase t p + 0x0) 16 8 .rw 0
def MMP_DEPTH_M1 (t p : Nat) : Field := fld (mmpBase t p + 0x8) 0 40 .rw 0
def MMP_CFG2 (t p : Nat) : Field := fld (mmpBase t p + 0x10) 0 30 .rw 0
/-- The fields that overlap the 32-bit word at offset `o` of: MMP configuration block (R152). -/
def mmpWord (t p : Nat) (o : Nat) : List Field :=
  match o with
  | 0x0 => [MMP_BIND t p, MMP_RO t p, MMP_WMASK t p, MMP_OOR_POLICY t p, MMP_OWNER t p, MMP_OWNER_HALF t p, MMP_AWIDTH_M1 t p, MMP_DWIDTH_M1 t p]
  | 0x8 => [MMP_DEPTH_M1 t p]
  | 0xC => [MMP_DEPTH_M1 t p]
  | 0x10 => [MMP_CFG2 t p]
  | _ => []

/-! ## MMP counter block (R178) -/

/-- BAR0 offset of: MMP counter block (R178). -/
def mmpcBase (t p : Nat) : Nat := 0x3201400 + (t / 32) * 0x400000 + (t % 32) * 0x2000 + p * 32
def MMP_READS (t p : Nat) : Field := fld (mmpcBase t p + 0x0) 0 64 .rc 0
def MMP_WRITES (t p : Nat) : Field := fld (mmpcBase t p + 0x8) 0 64 .rc 0
def MMP_OOR (t p : Nat) : Field := fld (mmpcBase t p + 0x10) 0 64 .rc 0
def MMP_HOLD (t p : Nat) : Field := fld (mmpcBase t p + 0x18) 0 48 .rc 0
def MMP_WDROP (t p : Nat) : Field := fld (mmpcBase t p + 0x18) 48 16 .rc 0
/-- The fields that overlap the 32-bit word at offset `o` of: MMP counter block (R178). -/
def mmpcWord (t p : Nat) (o : Nat) : List Field :=
  match o with
  | 0x0 => [MMP_READS t p]
  | 0x4 => [MMP_READS t p]
  | 0x8 => [MMP_WRITES t p]
  | 0xC => [MMP_WRITES t p]
  | 0x10 => [MMP_OOR t p]
  | 0x14 => [MMP_OOR t p]
  | 0x18 => [MMP_HOLD t p]
  | 0x1C => [MMP_HOLD t p, MMP_WDROP t p]
  | _ => []

end Reg

end Sys2Proof
end

