-- ==== Sys2Proof/Machine/State.lean ====
section
/-!
DEFINITION. The state of the SK96 as a block, as plain data: everything the manual gives the device, and the queue
of commands that wait. The registers of BAR0 are one table of field values by bit address (`regs`); a field not
listed there holds its reset value.
-/
namespace Sys2Proof.Machine
open Sys2Proof

/-- Why the machine stops. -/
inductive Fault where
  /-- A use that the manual calls undefined (R14), with the rule broken. No meaning raises it: every command has an effect in every
  state. Safe: it would stop the model where the device does something unknown. -/
  | undefinedUse (rule : Nat)
deriving DecidableEq, Repr

/-- Why a command has no meaning. -/
inductive Refusal where
  /-- The command has no meaning, answered by its arm of the dispatch. Every command has its meaning, so no arm answers it. Safe: it would
  stop the model. -/
  | notModelled (mnemonic : String)
deriving DecidableEq, Repr

/-! ## The emulation engine: clusters, net spaces, stores and ports -/

/-- One logical cluster's progress in the cycle (R39, R42, R125). -/
structure Half where
  /-- a step has begun to issue -/
  issuing : Bool
  /-- that step -/
  step : Nat
  /-- the words of BPs below this number have issued: the words of one step issue in ascending BP order -/
  nextBp : Nat
  /-- slots written or consumed in that step, with the value they held before it -/
  old : List (Nat × Bool)
  /-- speculative blocks decided in this cycle, and whether each is taken -/
  decided : List (Nat × Bool)
  /-- step clocks of the hold in progress at `nextStep`, and its first cause: KIND and DETAIL (R387) -/
  holds : Nat
  cause : Nat × Nat
deriving DecidableEq, Repr

/-- No step issued, nothing decided. -/
def Half.idle : Half := ⟨false, 0, 0, [], [], 0, (0, 0)⟩

/-- One access of a model memory port, with the location of its MPG (R158, R176). -/
structure MmpAccess where
  seq : Nat
  addr : BitVec 40
  data : BitVec 256
  write : Bool
  pc : Nat
  half : Bool
  bp : Nat
  step : Nat
  /-- a FAR read that the controller has accepted: it holds a tag of its stack until its data returns (R164) -/
  far : Bool
  /-- the device stopped while the read was in flight: its result is discarded (R169) -/
  dead : Bool
deriving DecidableEq, Repr

/-- One model memory port (R149). -/
structure MmpPort where
  /-- address register -/
  addr : BitVec 40
  /-- data register -/
  data : BitVec 256
  /-- the step in which the registers were last written, plus 1 (0: none) -/
  stamp : Nat
  /-- the registers after the writes of all earlier steps (R157) -/
  addr0 : BitVec 40
  data0 : BitVec 256
  /-- request queue -/
  requests : List MmpAccess
  /-- write queue -/
  writes : List MmpAccess
  /-- reads taken whose results have not arrived -/
  flying : List MmpAccess
  /-- full entries of the result buffer -/
  results : List (Nat × BitVec 256)
  /-- SEQ numbers used by read MPGs and by write MPGs of the cycle -/
  usedRead : List Nat
  usedWrite : List Nat
deriving DecidableEq, Repr

/-- A port as the tick finds it (R64, R66). -/
def MmpPort.empty : MmpPort := ⟨0, 0, 0, 0, 0, [], [], [], [], [], []⟩

/-- A record of a queue (R344), with where it came from. -/
structure Record where
  dcyc : BitVec 48
  seq : BitVec 32
  alive : Byte
  rflags : Byte
  check : BitVec 64
  user : BitVec 64
  data : BitVec 256
  /-- FETCHED index at fetch, or arrival count (R356) -/
  ridx : BitVec 32
  /-- the device it arrived from, for a remote record -/
  remote : Option (BitVec 9)
  /-- period of the time clock in which it entered its window, or in which an outbound one was pushed (R350, R366) -/
  entered : Nat
  /-- order of entry into the window (R350) -/
  order : Nat
deriving DecidableEq, Repr

/-- One message port of a tile (R67 to R70, R349 to R353). -/
structure MsgPort where
  /-- current inbound message, with its queue -/
  cur : Option (Nat × Record)
  /-- staged inbound message, with its queue -/
  staged : Option (Nat × Record)
  /-- the outbound message being built -/
  out : BitVec 256
  /-- pop and push requested in this cycle -/
  pop : Bool
  push : Bool
deriving DecidableEq, Repr

/-- A port with no message. -/
def MsgPort.empty : MsgPort := ⟨none, none, 0, false, false⟩

/-- The identity of the entry that feeds a receive slot (R97). -/
structure Feeder where
  dev : BitVec 9
  die : BitVec 2
  tile : BitVec 5
  entry : BitVec 12
deriving DecidableEq, Repr

/-- An agent write to a running tile, held to action 4 of a commit (R33, R132). -/
inductive HeldWrite where
  /-- state bits of one physical cluster: (address, value) -/
  | state (pc : Nat) (bits : List (Nat × Bool))
  /-- word `w` of model memory port `p` of tile `t` (R170) -/
  | word (t p w v : Nat)
  /-- one block-table entry or program register of the die window -/
  | block (k : Nat) (v : BitVec 64)
  | prog (k : Nat) (v : BitVec 32)
deriving DecidableEq, Repr

/-- The clusters, net spaces, stores, tables and ports of the four compute dies. Keys: cluster p = die*512 +
tile*16 + cluster; tile t = die*32 + tile (R25). -/
structure Engine where
  /-- disabled clusters (R5) by p; unlisted: enabled -/
  clusterOff : Map Bool
  /-- instruction words by p*131072 + bp*2048 + address (R44) -/
  imem : Map (BitVec 80)
  /-- check status of a stored word: 0 clean, 1 single-bit, 2 double-bit, 3 single-bit corrected by a fetch -/
  imemErr : Map Nat
  /-- the tile is loaded folded, by t -/
  fold : Map Bool
  /-- the image assigns the tile a logical tile, by t (R31) -/
  assigned : Map Bool
  /-- logical cluster of p*2 + half -/
  lc : Map Nat
  /-- local slots by p*2048 + slot -/
  slot : Map Bool
  /-- receive slot and route buffer by p*448 + offset, oldest first, at most five (R95) -/
  recv : Map (List Bool)
  /-- receive control by p*448 + offset (R97) -/
  feeder : Map (Option Feeder)
  /-- receive slots under SUBSTITUTE (R229), by p*448 + offset -/
  substitute : Map Bool
  /-- current and next state buffers by p*65536 + SADDR -/
  cur : Map Bool
  nxt : Map Bool
  /-- progress of p*2 + half in the cycle -/
  half : Map Half
  /-- predictions by p*64 + block entry; unlisted: taken (R125) -/
  predict : Map Bool
  /-- program registers by p*2 + half (R119) -/
  prog : Map (BitVec 32)
  /-- block table entries by p*64 + entry (R120) -/
  block : Map (BitVec 64)
  /-- send maps by (p*2 + half)*2048 + step (R99) -/
  sendMap : Map (BitVec 12)
  /-- route table by t*4096 + entry (R100) -/
  route : Map (BitVec 32)
  /-- route entries DETACHED (R229), by t*4096 + entry -/
  detached : Map Bool
  /-- credits of DIRECT entries; unlisted: 5 (R97) -/
  credit : Map Nat
  /-- captured bit of an instruction word's last execution (R78), by word number -/
  capBit : Map Bool
  /-- on-die model memory by t*3145728 + byte (R155) -/
  mem : Memory
  /-- error marks of 64-bit rows by t*393216 + row, and of FAR lines by 2^26 + die*2^30 + line: 1 single-bit, 2 double-bit, 3 single-bit
  found in a row that the next commit phase writes back (R175) -/
  memErr : Map Nat
  /-- model memory ports by t*32 + port -/
  mmp : Map MmpPort
  /-- message ports by t*16 + port -/
  msg : Map MsgPort
  /-- owner of outbound and inbound target bits: 0 unbound, 1 + p*2 + half (R71) -/
  tbOut : Map Nat
  tbIn : Map Nat
deriving DecidableEq, Repr

/-! ## The exchange beyond the tile -/

/-- A value or credit record on its way (R110). -/
structure XRec where
  credit : Bool
  dev : BitVec 9
  die : BitVec 2
  tile : BitVec 5
  cluster : BitVec 4
  rslot : BitVec 9
  entry : BitVec 12
  value : Bool
  /-- bits [7:0] of the cycle number in which it was sent (R244) -/
  cyc : BitVec 8
deriving DecidableEq, Repr

/-- A closed exchange frame on a bridge module (R110). -/
structure Frame where
  dev : BitVec 9
  die : BitVec 2
  seq : BitVec 8
  recs : List XRec
deriving DecidableEq, Repr

/-- Records in flight. Directed modules m: 0-31 die to hub (die*8 + module), 32-63 hub to die, 64-79 horizontal
neighbour bridge from die*4 + column, 80-95 vertical (R107). -/
structure Exchange where
  /-- records on the mesh and crossbars of their destination die, oldest first -/
  transit : List XRec
  /-- open frames by (m*4 + die)*512 + device (R109) -/
  opened : Map (List XRec)
  /-- closed frames under way on module m -/
  frames : Map (List Frame)
  /-- next SEQ to send and last SEQ received, plus 1, of module m -/
  seqTx : Map (BitVec 8)
  seqRx : Map (BitVec 8)
  /-- modules in retrain (R111) -/
  retrain : Map Bool
  /-- open EXCH flits by destination device (R245) -/
  flits : Map (List XRec)
deriving DecidableEq, Repr

/-! ## The cycle -/

/-- The cycle in progress and the commit controller. -/
structure Cycle where
  /-- a fault has been recorded in this cycle -/
  faulted : Bool
  /-- after a fault stopped the cycle: the step clock of the fault, and the physical clusters that faulted (R82) -/
  late : Option (Nat × List Nat)
  /-- step clock and location of the recorded fault, when a step of this cycle raised it (R83) -/
  faultAt : Option (Nat × Nat)
  /-- step clocks that a physical cluster has lost to holds and cancels in this cycle (R43, R125) -/
  lost : Map Nat
  /-- half b of a folded physical cluster is the one to issue first, by physical cluster (R128) -/
  lead : Map Bool
  /-- the latest step clock of the cycle that a cluster of the die has reached (R144) -/
  dieNow : Map Nat
  /-- action 7 of the commit phase waits for these HOLD ports (t*16 + port) (R134) -/
  waiting : List Nat
  /-- COMMIT_STALL has been raised for this wait -/
  stalled : Bool
  /-- the tick at hand has been counted as delayed by the skew limiter, by THROTTLE -/
  skewSeen : Bool
  throttleSeen : Bool
  /-- die done, by die -/
  dieDone : Map Bool
  /-- ACT of the cycle in progress or, between two cycles, of the next one; `ready`: action 8 has prepared it (R122, R131) -/
  act : BitVec 32
  ready : Bool
  /-- FIRST and PARITY of the cycle (R90) -/
  first : Bool
  parity : Bool
  /-- step clock and location of the first STOPC of the cycle (R75) -/
  stopc : Option (Nat × Nat)
  /-- a mask test with STOP has failed in this cycle (R382) -/
  maskStop : Bool
  /-- a STOP request is kept for the next stop decision (R142) -/
  stopReq : Bool
  /-- the next PACED instant not yet treated, and an overrun has been raised for the cycle (R139) -/
  instant : Nat
  overran : Bool
  /-- local time in ns at which action 7 began to wait (R353) -/
  waitFrom : Nat
  /-- step clocks held in the cycle, by die (R390) -/
  dieHolds : Map Nat
  /-- a step-clock change waits for the next boundary, and the PLL is relocking (R36) -/
  clockReq : Option Nat
  relocking : Bool
  /-- outbound target bits as last passed to the adapter fabric, and inbound bits sampled at the tick (R72, R73) -/
  tout : Map Bool
  tin : Map Bool
  /-- outbound bits driven in this cycle -/
  driven : Map (Option Bool)
  /-- tiles that raised DESIGN_ASSERT in this cycle (R74) -/
  asserted : Map Bool
  /-- step clock, cluster and BP of the mismatch in a tile's assertion record, when it is of this cycle (R74) -/
  assertAt : Map (Option (Nat × Nat))
  /-- clock schedule (R122) -/
  sched : Map (BitVec 128)
  /-- deadlock report words by die*1024 + word (R145) -/
  report : Map (BitVec 64)
  /-- agent writes held per tile, oldest first, with the call each answers (R33) -/
  held : Map (List (Nat × HeldWrite))
deriving DecidableEq, Repr

/-! ## Commands and the control fabric -/

/-- Where a command came from (R450). `gone`: its ring has gone out of service, so its replies are discarded (R454). -/
inductive Via where
  | ring (r : Nat)
  | smbus
  | ethernet
  | gone
deriving DecidableEq, Repr

/-- A command packet as Mule has it (R455). -/
structure Request where
  via : Via
  opcode : Nat
  tag : Nat
  flags : Nat
  version : Nat
  length : Nat
  scope : Nat
  rsvd : Nat
  params : List Byte
deriving DecidableEq, Repr

/-- A command that has replied PENDING and not yet sent its final reply (R453). -/
structure Call where
  id : Nat
  via : Via
  opcode : Nat
  tag : Nat
  event : Bool
  /-- the requester partition, and the partition whose rights it uses (R439, R440) -/
  part : Nat
  target : Nat
deriving DecidableEq, Repr

/-- A PEEK of slots that waits for a commit phase (R468): full bits or values of slots of a cluster. -/
structure Peek where
  call : Nat
  pc : Nat
  full : Bool
  slots : List Nat
deriving DecidableEq, Repr

/-- One patched word of a forced slot: instruction-word number, original word, forced word (R88, R470). -/
structure ForcedWord where
  key : Nat
  orig : BitVec 80
  forced : BitVec 80
deriving DecidableEq, Repr

/-- A forced slot in Mule's patch table (R470). -/
structure Forced where
  part : Nat
  lc : Nat
  slot : Nat
  value : Bool
  words : List ForcedWord
  /-- the FORCE is armed and not yet applied; a RELEASE is armed and not yet applied -/
  armed : Bool
  releasing : Bool
deriving DecidableEq, Repr

/-- A patch group that waits for action 4 (R85, R470): the call it answers, its slots (LC, slot), its words by number, and
the entries it puts into the patch table when it is armed. -/
structure Group where
  call : Nat
  part : Nat
  release : Bool
  slots : List (Nat × Nat)
  words : List (Nat × BitVec 80)
  entries : List Forced
  armed : Bool
deriving DecidableEq, Repr

/-- A reply of the device on the Ethernet port, and the datagrams accepted last (R462). -/
structure Eth where
  /-- last accepted COUNTER -/
  counter : Option Nat
  /-- COUNTER of the command that last used a TAG -/
  counters : Map Nat
  /-- the last 16 accepted: COUNTER, datagram, and the last reply sent to it -/
  stored : List (Nat × List Byte × List Byte)
  /-- reply datagrams sent, oldest first -/
  out : List (List Byte)
  /-- ETH_AUTH_FAIL: the manual gives it no register -/
  authFail : Nat
deriving DecidableEq, Repr

/-- The control fabric's state beside its registers. -/
structure Ctl where
  /-- masked MSI-X vectors, held messages and messages sent, by vector (R492) -/
  msixMask : Map Bool
  msixPba : Map Bool
  msixSent : Map Nat
  /-- outstanding commands, oldest first, and the number of the next -/
  calls : List Call
  nextCall : Nat
  /-- replies held for a full CQ, by ring: bytes, and whether a completion event follows (R452) -/
  heldReplies : Map (List (List Byte × Bool))
  /-- the SMBus packet being assembled, replies that wait, and the place in the oldest (R461) -/
  smbusIn : Option (List Byte)
  smbusOut : List (List Byte)
  smbusPos : Nat
  eth : Eth
  /-- PEEKs that wait for a commit phase -/
  peeks : List Peek
  /-- Mule's patch table and the groups that wait for action 4, oldest first -/
  forced : List Forced
  groups : List Group
deriving DecidableEq, Repr

/-- The control fabric after reset. -/
def Ctl.reset : Ctl :=
  { msixMask := [], msixPba := [], msixSent := [], calls := [], nextCall := 1, heldReplies := [], smbusIn := none,
    smbusOut := [], smbusPos := 0, eth := ⟨none, [], [], [], 0⟩, peeks := [], forced := [], groups := [] }

/-! ## Queues -/

/-- What the engine keeps of a record in a spill ring beside its bytes: as the fields of Record. -/
structure SpillMark where
  ridx : BitVec 32
  remote : Option (BitVec 9)
  entered : Nat
deriving DecidableEq, Repr

/-- The device side of one queue (R343 to R347, R359). -/
structure Queue where
  /-- burst window, oldest first -/
  window : List Record
  /-- what the engine keeps of the records in the spill ring, oldest first, and the slot of the oldest; their 64 bytes stand in HBM -/
  spill : List SpillMark
  spillAt : Nat
  /-- last index written to WB_ADDR -/
  wbLast : Nat
  /-- records fetched or written since the last group event (R366) -/
  unsignalled : Nat
  /-- pushes made, for SEQ; arrivals of remote and BROADCAST records, for RIDX -/
  pushes : Nat
  arrivals : Nat
  /-- remote credits in use (R359) -/
  lent : Nat
  /-- next order of entry into the window -/
  order : Nat
deriving DecidableEq, Repr

/-- An empty queue. -/
def Queue.empty : Queue := ⟨[], [], 0, 0, 0, 0, 0, 0, 0⟩

/-- An entry of a delivery log for the latest cycle: partition, cycle, port and its 16 bytes (R356). -/
structure LogEntry where
  part : Nat
  cycle : Nat
  port : Nat
  bytes : List Byte
deriving DecidableEq, Repr

/-- The transaction engine. -/
structure Queues where
  q : Map Queue
  /-- check units that have seen a record since they were bound (R362) -/
  unitSeen : Map Bool
  /-- records under reassembly by source device * 16384 + queue (R360) -/
  asm : Map (Option Record)
  /-- delivery-log entries of the latest cycle of each partition -/
  logged : List LogEntry
  /-- the function whose requester ID the latest DMA on the host link carried: 0 the PF, 1 + p VF p (R338) -/
  requester : Nat
deriving DecidableEq, Repr

/-- No record anywhere. -/
def Queues.reset : Queues := ⟨[], [], [], [], 0⟩

/-! ## Links (chapter 9) and system messages (chapter 8) -/

/-- A flit: type and payload (R287, R288). -/
structure Flit where
  type : Byte
  payload : BitVec 224
deriving DecidableEq, Repr

/-- The transmitter of a lane's line: the scrambled bits sent, latest first; the scrambled bits of the codeword that is being formed and
the count of the next one; the level and length of the run of equal symbols at the end (R284, R286, R291). -/
structure LineTx where
  past : List Bool
  bits : List Bool
  count : BitVec 12
  level : Nat
  run : Nat
deriving DecidableEq, Repr

/-- The receiver of a lane's line: the scrambled bits received, latest first, and the run of equal symbols at the end; a run of 33 is a
stuffing pair of which the second symbol is still to come (R284, R286). -/
structure LineRx where
  past : List Bool
  level : Nat
  run : Nat
deriving DecidableEq, Repr

/-- A sequenced flit that awaits acknowledgement: its place in the trunk stream, its lane and SEQ (R293, R294). -/
structure SentFlit where
  idx : Nat
  lane : Nat
  seq : Byte
  flit : Flit
deriving DecidableEq, Repr

/-- One lane beside its registers. -/
structure Lane where
  /-- symbol offset under test (R298) -/
  offset : BitVec 7
  /-- next SEQ to send, next SEQ expected, whether any sequenced flit has been received, NAK (R292, R293) -/
  txSeq : Byte
  rxNext : Byte
  ackValid : Bool
  /-- the receiver discards flits until the expected SEQ comes, and has yet to say so in a FILL -/
  nak : Bool
  nakDue : Bool
  /-- the partner's last reported RX_SEQ -/
  partnerRx : Byte
  /-- resends without progress -/
  resends : Nat
  /-- sequenced flits accepted on the lane that wait for its turn, oldest first (R294) -/
  held : List Flit
  /-- consecutive uncorrectable codewords; next codeword count (R291) -/
  uncorr : Nat
  cwNext : BitVec 12
  /-- consecutive unchanged CONFIG flits and the fields they carried: LANE, TRUNK, LOGICAL (R295) -/
  cfgGood : Nat
  cfgLast : BitVec 18
  /-- START received on the lane, and the partner's FEC_REQ (R297, R299) -/
  gotStart : Bool
  partnerFec : Bool
  /-- RESUME received on the lane (R302) -/
  gotResume : Bool
  /-- the PRBS checker is locked; the bits before the next one in it and in the generator, latest first, and its count of error-free
  bits (R305, R306) -/
  prbsLock : Bool
  prbsSeen : List Bool
  prbsGood : Nat
  prbsSent : List Bool
  /-- the transmitter and the receiver of the line -/
  tx : LineTx
  rx : LineRx
deriving DecidableEq, Repr

/-- A lane after reset. -/
def Lane.reset : Lane :=
  ⟨0, 0, 0, false, false, false, 255, 0, [], 0, 0, 0, 0, false, false, false, false, [], 0, [], ⟨[], [], 0, 0, 0⟩, ⟨[], 0, 0⟩⟩

/-- One trunk beside its registers. -/
structure Trunk where
  /-- flits of the trunk stream not yet given to a lane, oldest first -/
  queue : List Flit
  /-- flits given to a lane and not yet acknowledged, in trunk order -/
  sent : List SentFlit
  /-- place in the trunk stream of the next flit to send -/
  nextIdx : Nat
  /-- rotation: logical index whose turn it is to send and to receive -/
  turnTx : Nat
  turnRx : Nat
  /-- DELIVERED (R294) -/
  delivered : BitVec 32
  /-- START is being sent; the lanes of the own start set; the partner's mask once received (R299) -/
  starting : Bool
  ownSet : List Nat
  partnerMask : Option (BitVec 16)
  /-- recovery count (R302) -/
  recoveries : Byte
  /-- the partner's last HELLO: FW_LEVEL, SYS_LEVEL, STATE, IMAGE_ID; `none` before the first (R248) -/
  hello : Option (BitVec 8 × BitVec 8 × BitVec 3 × BitVec 128)
  /-- c_p has been set by a cycle report (R253) -/
  cpKnown : Bool
deriving DecidableEq, Repr

/-- A trunk after reset. -/
def Trunk.reset : Trunk := ⟨[], [], 0, 0, 0, 0, false, [], none, 0, none, false⟩

/-- The link engines. -/
structure Links where
  lane : Map Lane
  trunk : Map Trunk
  /-- flits sent, with lane and SEQ, and the line symbols sent, with lane, oldest first (the block's output) -/
  out : List (Nat × Byte × Flit)
  line : List (Nat × List Nat)
deriving DecidableEq, Repr

def Links.reset : Links := ⟨[], [], [], []⟩

/-- A SYNC message received and not yet used (R254). -/
structure SyncMsg where
  trunk : Nat
  origin : Nat
  seq : Nat
  round : Nat
  abort : Bool
  maxcyc : Nat
deriving DecidableEq, Repr

/-- What an agreement is about. -/
inductive AgreeKind where
  | cycleOps   -- the operations pending for the boundary at hand (R258), quiescent
  | timeOp     -- the cycle of a time-scheduled operation (R262)
  | stop       -- an aligned stop (R263)
deriving DecidableEq, Repr

/-- An agreement in progress (R255). -/
structure Agreement where
  kind : AgreeKind
  origin : Nat
  seq : Nat
  /-- next round to send -/
  round : Nat
  abort : Bool
  maxcyc : Nat
  /-- the boundary of the operations a quiescent agreement is about -/
  cycle : Nat
deriving DecidableEq, Repr

/-- A global operation as this device holds it (R257, R260, R278). `slot`: its GOP slot; `none` where all 16 were in
use, so that this device only votes ABORT for it. -/
structure Gop where
  slot : Option Nat
  /-- 1 pending, 2 in agreement, 3 complete -/
  state : Nat
  kind : Nat
  byTime : Bool
  aborted : Bool
  origin : Nat
  seq : Nat
  round : Nat
  /-- C; for a time-scheduled operation set once agreed -/
  cycle : Nat
  /-- T: seconds and nanoseconds -/
  sec : Nat
  ns : Nat
  flags : Nat
  arg : Nat
  data : Nat
  /-- this device votes ABORT; it has taken its mark; C is agreed -/
  vote : Bool
  marked : Bool
  agreed : Bool
  /-- comparator 6 has fired for its T (R330) -/
  fired : Bool
  /-- the call that waits for the final reply; 0 on other devices -/
  call : Nat
deriving DecidableEq, Repr

/-- An aligned stop under way (R263). -/
structure StopState where
  /-- the notices joined: origin, SEQ, cause -/
  ids : List (Nat × Nat × Nat)
  marked : Bool
  /-- the agreed boundary -/
  target : Option Nat
  /-- the cause of this device's own stop; 0: none of its own -/
  cause : Nat
deriving DecidableEq, Repr

/-- One snapshot slot of one partition (R271, R273). -/
structure SnapSlot where
  valid : Bool
  invalid : Bool
  writing : Bool
  epoch : BitVec 32
  cycle : BitVec 48
  /-- areas: line offset and line count per stack -/
  areas : List (Nat × Nat)
  /-- parts imported so far: stacks of this partition (R446) -/
  imported : List Nat
  /-- WRITING stands for an import (R446) -/
  importing : Bool
deriving DecidableEq, Repr

def SnapSlot.empty : SnapSlot := ⟨false, false, false, 0, 0, [], [], false⟩

/-- The contents of a snapshot (R272). -/
structure Snapshot where
  cycle : Nat
  epoch : Nat
  deviceImage : BitVec 128
  /-- (partition, IMAGE_ID, MAP_ID) of each partition with an image -/
  images : List (Nat × Nat × Nat)
  cur : Map Bool
  slot : Map Bool
  recv : Map (List Bool)
  credit : Map Nat
  detached : Map Bool
  substitute : Map Bool
  mem : Memory
  hbm : Memory
  msgs : Map MsgPort
  queues : Map Queue
  /-- credits in use of outbound queues, and records under reassembly -/
  lent : List (Nat × Nat)
  asm : Map (Option Record)
  tout : Map Bool
  forced : List Forced
  settings : List (Nat × Nat)
  sched : Map (BitVec 128)
deriving DecidableEq, Repr, Inhabited

/-- The system layer. -/
structure SysState where
  /-- device image ID of the last full load (R248) -/
  deviceImage : BitVec 128
  /-- LINK_LEVEL of the image in each partition; `none`: no image (R250) -/
  linkLevel : Map (Option Nat)
  /-- global operations, in order of arrival -/
  ops : List Gop
  /-- (CSUB, ORIGIN, SEQ) seen, for flooding (R249) -/
  seen : List (Nat × Nat × Nat)
  /-- next own SEQ per CSUB -/
  ownSeq : Map (BitVec 8)
  syncs : List SyncMsg
  agreements : List Agreement
  stop : Option StopState
  /-- a FAULT_NOTICE from this device waits for the next boundary (R264) -/
  notice : Option Nat
  /-- a snapshot has been taken at the boundary at hand: slot, C, and the call (R273) -/
  snapOpen : Option (Nat × Nat)
  /-- snapshot slots by partition*4 + slot, and the contents by slot -/
  snap : Map SnapSlot
  contents : Map (Option Snapshot)
  /-- the restore in progress: slot and reply -/
  restoring : Option (Nat × Nat)
  /-- previous LAST_PERIOD and the step clocks (MHz) of it and of the last (R261) -/
  prevPeriod : Nat
  prevMhz : Nat
  lastMhz : Nat
deriving DecidableEq, Repr

def SysState.reset : SysState :=
  { deviceImage := 0, linkLevel := [], ops := [], seen := [], ownSeq := [], syncs := [], agreements := [], stop := none, notice := none, snapOpen := none, snap := [],
    contents := [], restoring := none, prevPeriod := 0, prevMhz := 1000, lastMhz := 1000 }

/-! ## Security (R428 to R446) -/

/-- A run of lines last written under one key (R433): stack, first line, number of lines, number of the key. -/
structure Stamp where
  stack : Nat
  first : Nat
  count : Nat
  key : Nat
deriving DecidableEq, Repr

/-- Gander's key store and the inline crypto engines, beside their registers. Keys have numbers: two lines have valid
tags under one number exactly when they were written under the same keys. -/
structure SecState where
  /-- image root keys by key slot (R428) -/
  root : Map (BitVec 256)
  /-- registered signing keys by partition (R430) -/
  signKey : Map (List Byte)
  /-- working keys of partition*4 + stack, and the old ones while a re-key runs or has stopped (R431, R442) -/
  gen : Map Nat
  oldGen : Map Nat
  /-- next number of a working key -/
  nextGen : Nat
  /-- snapshot keys by partition, an odd number made of KR, IMAGE_ID and LDEV (R431) -/
  snapKey : Map Nat
  /-- tags: newest writes first; a line in no range has no valid tag (R435) -/
  stamps : List Stamp
  /-- SET_RIGHTS between its steps 1 and 4: its call and the requests of the old epoch (R440) -/
  rights : Option (Nat × List Nat)
  /-- calls of the re-keys under way, by stack -/
  rekeyCall : Map Nat
  /-- copies under way: call, partition, slot, stack, host address (R445) -/
  exports : List (Nat × Nat × Nat × Nat × Nat)
  imports : List (Nat × Nat × Nat × Nat × Nat)
  /-- boundary table of the image in each partition (R424) -/
  boundary : Map (List (BitVec 64))
  /-- imported copies by (partition*4 + slot)*4 + stack -/
  copies : Map (List Byte)
deriving DecidableEq, Repr

def SecState.reset : SecState :=
  { root := [], signKey := [], gen := [], oldGen := [], nextGen := 1, snapKey := [], stamps := [], rights := none,
    rekeyCall := [], exports := [], imports := [], boundary := [], copies := [] }

/-! ## Capture and trace (R368 to R395) -/

/-- One entry of a loaded capture map: its 8 bytes with the physical position and die (R393), and the instruction word
it names. -/
structure CapEntry where
  raw : BitVec 64
  trigger : Bool
  die : Nat
  pos : Nat
  word : Nat
deriving DecidableEq, Repr

/-- How the arm at hand takes effect (R373). -/
inductive ArmMode where
  | none | next | atCycle | comparator (c : Nat)
deriving DecidableEq, Repr

/-- The acquisition engine beside its registers. -/
structure Acq where
  /-- capture map by partition -/
  entries : Map (List CapEntry)
  arm : ArmMode
  /-- a FORCE waits for the next commit -/
  force : Bool
  /-- cycles committed since the arming boundary -/
  cycles : Nat
  /-- records written since the trigger record -/
  post : Nat
  /-- bytes in the staging of each die -/
  stage : Map Nat
  /-- a RESET_AT set the cycle number at the boundary before this cycle -/
  wasReset : Bool
  /-- local time at which the tick was released -/
  tickSec : Nat
  tickNs : Nat
deriving DecidableEq, Repr

def Acq.reset : Acq := ⟨[], .none, false, 0, 0, [], false, 0, 0⟩

/-- An instruction that retires on a Mule core and that trace records, with the number of instructions retired with it since the one
recorded before (R387, R390). -/
inductive MuleEvent where
  /-- a taken indirect branch or a return -/
  | flow (ran : Nat) (target : BitVec 64)
  | except (ran : Nat) (cause : Byte) (target : BitVec 64)
  /-- an access of 2^size bytes -/
  | data (ran : Nat) (store : Bool) (size : BitVec 2) (addr value : BitVec 64)
deriving DecidableEq, Repr, Inhabited

/-- What the trace encoder of a Mule core holds (R390, R391). -/
structure MuleCore where
  /-- instructions retired since the last FLOW -/
  icnt : Nat
  /-- PC and DADDR from which delta addresses count: as the output stands, then after each packet that waits in the FIFO -/
  refs : List (Nat × Nat)
deriving DecidableEq, Repr

def MuleCore.empty : MuleCore := ⟨0, [(0, 0)]⟩

/-- The trace funnel beside its registers (R388). Packets wait as (type, payload) by source. -/
structure Trace where
  fifo : Map (List (Nat × List Byte))
  lost : Map Nat
  /-- the source whose turn is next -/
  turn : Nat
  /-- local time in ns of the previous packet of the stream -/
  last : Nat
  /-- the 8 MiB trace buffer -/
  buffer : Memory
  /-- bytes of output since the last sync point; bytes lost by the sink since then count in TRC_LOST -/
  since : Nat
  /-- TRC_DISABLE's call while the funnel drains -/
  drain : Option Nat
  /-- a sink under STOP_FULL has stopped at full (R392) -/
  stopped : Bool
  /-- the trace encoders of the Mule cores, by source -/
  mule : Map MuleCore
  /-- draws of what the active pair has retired -/
  retired : Nat
deriving DecidableEq, Repr

def Trace.reset : Trace := ⟨[], [], 0, 0, [], 0, none, false, [], 0⟩

/-! ## Time -/

/-- A message that the Ethernet port has sent (R327): its encapsulation and domain, its kind (0 Sync, 1 Delay_Req, 9 Delay_Resp,
11 Announce), sequence identifier, time in units of 2^-16 ns, and the rest of its fields. -/
structure PtpMsg where
  frame : PtpFrame
  kind : Nat
  seq : Nat
  time : Nat
  body : List Byte
deriving DecidableEq, Repr

/-- The time unit and the halt monitor beside their registers (R310 to R334). -/
structure TimeState where
  sec : BitVec 48
  ns : Nat
  /-- 40 fraction bits of a nanosecond -/
  frac : BitVec 40
  /-- periods of the time clock, which steps of time do not move -/
  periods : Nat
  /-- next SEQ_ID by sender's trunk*4 + message kind; the Ethernet port's at 400 + kind -/
  seqTx : Map Nat
  /-- a peer-delay exchange under way, by trunk: SEQ_ID and t1 in units of 2^-16 ns (R320) -/
  asked : Map (Option (Nat × Nat))
  /-- the trunk has a mean path delay (R316) -/
  mpdOk : Map Bool
  /-- consecutive Syncs below 20 ns and above 100 ns (R323) -/
  good : Nat
  bad : Nat
  /-- Syncs that arrived on other trunks than PARENT (R317) -/
  ignored : Nat
  /-- comparators that are armed (R329) -/
  armed : Map Bool
  /-- Ethernet slave: last Sync (SEQ, ingress, correction) awaiting its Follow_Up, t1 and t2 of the last one complete, the
  Delay_Req under way (SEQ, t3), and the mean path delay (R327) -/
  ethSync : Option (Nat × Nat × Int)
  ethPair : Option (Int × Nat)
  ethReq : Option (Nat × Nat)
  ethMpd : Option Int
  /-- the last Announce received -/
  announce : List Byte
  /-- PTP messages sent, oldest first -/
  ptpOut : List PtpMsg
  /-- a disagreement of the halt channels is in progress and has not latched DISC; both asserted while running (R333) -/
  disagree : Bool
  haltLatch : Bool
deriving DecidableEq, Repr

/-- Local time 0. -/
def TimeState.reset : TimeState :=
  { sec := 0, ns := 0, frac := 0, periods := 0, seqTx := [], asked := [], mpdOk := [], good := 0, bad := 0, ignored := 0, armed := [],
    ethSync := none, ethPair := none, ethReq := none, ethMpd := none, announce := [], ptpOut := [], disagree := false,
    haltLatch := false }

/-! ## NV memory (R235 to R239) -/

/-- The NV memory and the option words. A field not listed holds its default (R236). -/
structure Nv where
  /-- option words in NV memory, and whether the sector passes its checks -/
  words : Map Byte
  good : Bool
  /-- Mule's option image, and the option words in force since the last boot copy -/
  image : Map Byte
  inForce : Map Byte
  /-- management key in force (R239) -/
  mgmtKey : List Byte
  /-- the two copies of the bank selector, 16 bytes each -/
  sel0 : List Byte
  sel1 : List Byte
  /-- bytes written into the firmware banks, bank A at 0 and bank B at 6 MiB -/
  banks : Memory
  /-- bytes of the default adapter personality and of the Mule event log, each from its first byte on -/
  personality : Memory
  log : Memory
  /-- OPT_COMMIT's or MGMT_KEY_SET's call while the sector is programmed -/
  commit : Option Nat
deriving DecidableEq, Repr

/-- The NV memory as the model assumes it at power-on. -/
def Nv.reset : Nv :=
  { words := [], good := true, image := [], inForce := [], mgmtKey := [],
    sel0 := [0x42, 0x53, 0x45, 0x4C, 0, 0, 0, 0, 0, 0, 0, 0, 0xD2, 0x68, 0xE4, 0x06], sel1 := [], banks := [], personality := [],
    log := [], commit := none }

/-! ## The Target Adapter Fabric (R396 to R417) -/

/-- A multiplexer that is switching (R406): the new selection, TAF_CLKSEL's call, whether it holds its output low since a falling edge
of the old clock, and the falling edges that the new clock has shown since. -/
structure MuxSwitch where
  sel : Nat
  call : Nat
  held : Bool
  falls : Nat
deriving DecidableEq, Repr

/-- The adapter fabric beside its registers. -/
structure Adapter where
  /-- configuration space: column*65536 + offset (R401) -/
  cfg : Memory
  /-- flip-flops by cell -/
  ff : Map Bool
  /-- block memories: row r of memory m at byte m*4608 + r*9 (R404) -/
  bram : Memory
  /-- data out of port P of memory m by m*2 + P, and the word read that waits for the output register -/
  bout : Map Nat
  bread : Map Nat
  /-- words of the asynchronous FIFOs, oldest first, and what the last tick sampled of each: FULL or VALID (R411) -/
  fifo : Map (List Nat)
  seen : Map Bool
  /-- levels at the inputs: TIO 0 to 255, then bit b of LVDS pair p at 256 + 8*p + b -/
  pins : Map Bool
  /-- the holding register of outbound bits, its cycle number, and a set that has not crossed yet (R407) -/
  hold : Map Bool
  holdCyc : Nat
  toggle : Bool
  /-- fabric-side outbound bits, CYC_LSB and CYC_STROBE -/
  out : Map Bool
  cycLsb : Nat
  strobe : Bool
  /-- S0, S1, the pointer (false: S0 is read), and a commit whose flip is crossing (R408) -/
  copy0 : Map Bool
  copy1 : Map Bool
  ptr : Bool
  flip : Bool
  /-- TB_REGION, TB_RCLK and TIN_MODE in force -/
  tbRegion : Nat
  tbRclk : Nat
  tinAuto : Bool
  /-- multiplexers that are switching, by region*4 + k -/
  moving : Map (Option MuxSwitch)
  /-- dividers by region*4 + k: source periods since the start of the output period, this one counted; 0: none has begun (R406) -/
  phase : Map Nat
  /-- the frequency of each TCLK pin in MHz, as last seen -/
  tclkMhz : Map Nat
  /-- fall-back blocks: bytes to send, bytes received, bytes sent, and idle clocks left of the byte at hand (R415) -/
  tx : Map (List Byte)
  rx : Map (List Byte)
  sent : Map (List Byte)
  left : Map Nat
deriving DecidableEq, Repr

/-- The fabric cleared (R402). -/
def Adapter.reset : Adapter :=
  { cfg := [], ff := [], bram := [], bout := [], bread := [], fifo := [], seen := [], pins := [], hold := [], holdCyc := 0,
    toggle := false, out := [], cycLsb := 0, strobe := false, copy0 := [], copy1 := [], ptr := false, flip := false,
    tbRegion := 0, tbRclk := 0, tinAuto := false, moving := [], phase := [], tclkMhz := [], tx := [], rx := [], sent := [], left := [] }

/-! ## Loads (R219 to R233) -/

/-- What a loaded image leaves recorded at its release (R231, R423, R424). -/
structure ImageIdent where
  image : Nat
  map : Nat
  level : Nat
  isSealed : Bool
  rights : Nat
  keySlot : Nat
  ldev : Nat
  boundary : List (BitVec 64)
  /-- the tiles that received a logical tile -/
  tiles : List Nat
deriving DecidableEq, Repr

/-- The loader beside its registers: LOAD_STATUS shows phase, partition, PARTIAL and FOLD. -/
structure Load where
  /-- the call of the load in progress; 0: none -/
  call : Nat
  commitAt : Bool
  commitCycle : Nat
  keySlot : Nat
  dtCount : Nat
  len : Nat
  /-- STAGE_LINE by stack -/
  lines : List Nat
  /-- local time in ns at acceptance -/
  start : Nat
  /-- the header, as it arrived; the device table; the segment tags that the loader computed -/
  header : List Byte
  dt : List Byte
  tags : List (BitVec 128)
  /-- LDEV of the section once authentic, for the load-error record -/
  ldev : Nat
  /-- tiles whose wake is under way (R509) -/
  waking : List Nat
  /-- a partition whose tiles enter reset at the next boundary (R229) -/
  resetDue : Option Nat
  /-- what the release records -/
  ident : Option ImageIdent
  /-- IMAGE_UNLOAD that waits for a boundary: call and partition -/
  unload : Option (Nat × Nat)
deriving DecidableEq, Repr

/-- No load in progress. -/
def Load.none : Load :=
  { call := 0, commitAt := false, commitCycle := 0, keySlot := 0, dtCount := 0, len := 0, lines := [], start := 0, header := [],
    dt := [], tags := [], ldev := 0x3FF, waking := [], resetDue := Option.none, ident := Option.none, unload := Option.none }

/-! ## Power, reset and the control rings (R475 to R521) -/

/-- Where the bring-up stands (R506, R515, R520). -/
inductive Boot where
  | off          -- VSTBY is not good
  | hold         -- the reset hold of step 1
  | reset        -- a device reset is held
  | steps        -- from step 3 to the option-load phase
  | optionLoad   -- the option-load phase
  | recovery     -- both firmware banks have failed (R237)
  | started      -- Mule runs; the default personality is being staged
  | copied       -- the boot copy has ended
  | up           -- the bring-up has ended
  | standby      -- STANDBY entered from IDLE
  | tripped      -- THERM_TRIP_N is asserted
deriving DecidableEq, Repr

/-- Power, reset, clocks and the watchdog beside their registers. -/
structure Power where
  boot : Boot
  /-- a DEVICE_RESET of LEVEL 0 has replied OK and not begun (R465) -/
  resetDue : Bool
  /-- bits of RST_CAUSE of the resets held pending through the option-load phase (R512) -/
  deferred : Nat
  /-- the reset at hand is held until the rails required in IDLE are good (R504) -/
  railHeld : Bool
  /-- reference clocks that are absent: 0 HUB, 1 + k LINK_k, 7 PCIE, 8 ETH (R531) -/
  noClock : Map Bool
  /-- PERST_N is asserted -/
  perst : Bool
  /-- a sample of the throttling interval at hand was at or above T_THROT; the last sample was below T_THROT - 3 (R519) -/
  hot : Bool
  cool : Bool
  /-- step clock that a raise waits for, the step clock that the AVS set points serve, and the dies whose regulator failed to
  acknowledge (R505) -/
  raise : Option Nat
  avsGoal : Nat
  avsFailed : Map Bool
  /-- the watchdog counts, has passed half its period, has expired (R478, R516) -/
  wdogOn : Bool
  wdogWarned : Bool
  wdogExpired : Bool
  /-- the TAP instruction (R527) -/
  jtag : Byte
deriving DecidableEq, Repr

/-- Power after a bring-up. -/
def Power.reset : Power :=
  { boot := .up, resetDue := false, deferred := 0, railHeld := false, noClock := [], perst := false, hot := false, cool := false,
    raise := none, avsGoal := 1000, avsFailed := [], wdogOn := true, wdogWarned := false, wdogExpired := false, jtag := 0x01 }

/-- A fence or a reset of a block that is under way, with its call: a compute die, or a device tile. -/
structure BlockTask where
  call : Nat
  die : Bool
  index : Nat
deriving DecidableEq, Repr

/-- What a write to the scratchpad makes of the word: the value, or through an alias W OR V or W AND NOT V (R484, R486). -/
inductive SpKind where
  | plain | set | clear
deriving DecidableEq, Repr

/-- The control rings and their stops beside their registers. -/
structure Rings where
  /-- fences and resets of blocks under way (R483, R518) -/
  fences : List BlockTask
  resets : List BlockTask
  /-- memory tests under way: call, tile, on-die model memory only (R473) -/
  tests : List (Nat × Nat × Bool)
  /-- tags in quarantine, with their generation (R482) -/
  quar : Map (BitVec 2)
  /-- high words that reads of split registers have latched, by word offset -/
  latch : Map Nat
  /-- characters in the console's receive buffer (R495) -/
  uart : List Byte
  /-- scratchpad accesses of a new owner that wait for the handover of their bank, oldest first (R485) -/
  spWait : List (SpKind × SpAccess)
deriving DecidableEq, Repr

def Rings.reset : Rings := { fences := [], resets := [], tests := [], quar := [], latch := [], uart := [], spWait := [] }

/-! ## The whole machine -/

/-- The state of the block. -/
structure State where
  /-- register fields that differ from their reset values, by bit address in BAR0 -/
  regs : Map Nat
  eng : Engine
  ex : Exchange
  cyc : Cycle
  ctl : Ctl
  qs : Queues
  lnk : Links
  sys : SysState
  sec : SecState
  acq : Acq
  trc : Trace
  /-- HBM stacks by die*2^36 + byte of the usable space (R156) -/
  hbm : Memory
  /-- host memory as the device's writes have left it -/
  host : Memory
  time : TimeState
  nv : Nv
  taf : Adapter
  load : Load
  pw : Power
  ring : Rings
  /-- the scratchpad: byte a of bank b at b*2^18 + a (R484) -/
  sp : Memory
  /-- next free value (the model's own counter; no rule rests on it) -/
  free : Nat
  /-- the data of the last host read completed (the model's own: what PCIe returned) -/
  readData : Nat
  /-- the commands that wait, first in, first out -/
  pending : List Instr
deriving DecidableEq, Repr

/-- The engine after reset: every tile gated, every array cleared. -/
def Engine.reset : Engine :=
  { clusterOff := [], imem := [], imemErr := [], fold := [], assigned := [], lc := [], slot := [], recv := [],
    feeder := [], substitute := [], cur := [], nxt := [], half := [], predict := [], prog := [], block := [],
    sendMap := [], route := [], detached := [], credit := [], capBit := [], mem := [], memErr := [], mmp := [],
    msg := [], tbOut := [], tbIn := [] }

/-- The exchange after reset: nothing in flight. -/
def Exchange.reset : Exchange :=
  { transit := [], opened := [], frames := [], seqTx := [], seqRx := [], retrain := [], flits := [] }

/-- The cycle logic after reset. -/
def Cycle.reset : Cycle :=
  { faulted := false, late := none, faultAt := none, lost := [], lead := [], dieNow := [], waiting := [], stalled := false, skewSeen := false, throttleSeen := false, dieDone := [], act := 0,
    ready := false, first := false, parity := false, stopc := none, maskStop := false, stopReq := false, instant := 0, overran := false, waitFrom := 0,
    dieHolds := [], clockReq := none, relocking := false, tout := [], tin := [], driven := [], asserted := [], assertAt := [], sched := [],
    report := [], held := [] }

/-- The machine right after a power-on reset and a completed bring-up with the default option words. -/
def State.reset : State :=
  { regs := [], eng := .reset, ex := .reset, cyc := .reset, ctl := .reset, qs := .reset, lnk := .reset, sys := .reset, sec := .reset,
    acq := .reset, trc := .reset, hbm := [],
    host := [], time := .reset, nv := .reset, taf := .reset, load := .none, pw := .reset, ring := .reset, sp := [], free := 0, readData := 0, pending := [] }

end Sys2Proof.Machine
end

