-- ==== Sys2Proof/Machine/Ops.lean ====
section
/-!
DEFINITION. The shared operations of the machine: register fields, counters, events, locations, faults.
-/
namespace Sys2Proof.Machine
open Sys2Proof Reg

/-! ## Register fields -/

/-- The value of a register field, of its width. -/
def getF (s : State) (f : Field) : Nat := mget s.regs f.reset f.key % 2 ^ f.width

/-- Set a register field; the value is taken modulo its width. -/
def setF (s : State) (f : Field) (v : Nat) : State :=
  { s with regs := mset s.regs f.reset f.key (v % 2 ^ f.width) }

/-- A one-bit field as a truth value. -/
def flag (s : State) (f : Field) : Bool := getF s f != 0

/-- The ring stop of a compute die or of a device tile accepts no request: it is fenced, or a fence of it is under way, whose port
closes at once (R483). -/
def portClosed (s : State) (die : Bool) (k : Nat) : Bool :=
  flag s (if die then DIE_FENCED k else TILE_FENCED k) || s.ring.fences.any (fun x => x.die == die && x.index == k)

/-- Set a one-bit field. -/
def setFlag (s : State) (f : Field) (b : Bool) : State := setF s f b.toNat

/-- Add to a counter that saturates at its width. -/
def addF (s : State) (f : Field) (n : Nat) : State := setF s f (satAdd f.width (getF s f) n)

/-- Ones that a write of `v` has in bits which no register of the word holds, `known` being those that one does, are counted (R17). -/
def countReserved (s : State) (known v : Nat) : State := if v &&& known ≠ v then addF s RSVD_WRITE 1 else s

/-- Set a list of fields. -/
def setFs (s : State) : List (Field × Nat) → State
  | [] => s
  | (f, v) :: r => setFs (setF s f v) r

/-- The next free value's number, and the state with the counter advanced: what the model draws where the manual
leaves a value open. -/
def drawFree (s : State) : State := { s with free := s.free + 1 }

/-! ## What runs (R475, R476, R515, R531) -/

/-- The hub core clock, and with it the step clock, has its reference. -/
def hubClock (s : State) : Bool := !mget s.pw.noClock false 0

/-- The step clock runs: the bring-up has ended, and Gander has not stopped it. -/
def stepClock (s : State) : Bool := s.pw.boot == .up && hubClock s && !s.pw.wdogExpired

/-- A pair of Mule cores is ACTIVE and executes commands. -/
def muleUp (s : State) : Bool :=
  hubClock s && !flag s SWITCHING && getF s (if flag s ACTIVE_PAIR then PAIR_B else PAIR_A) == 1

/-- The host reaches BAR0: the hub core has left reset, and the PCIe link answers. -/
def hostUp (s : State) : Bool :=
  hubClock s && !s.pw.perst && !mget s.pw.noClock false 7
    && (s.pw.boot == .up || s.pw.boot == .optionLoad || s.pw.boot == .recovery || s.pw.boot == .started || s.pw.boot == .copied)

/-- What an access of the host does while the device answers it. -/
def byHost (s : State) (k : State → State) : Host.Outcome State Fault Refusal := .next (if hostUp s then k s else s)

/-! ## Positions (R25) -/

/-- The device tile of a physical cluster. -/
def tileOfPc (pc : Nat) : Nat := pc / 16

/-- The compute die of a physical cluster. -/
def dieOfPc (pc : Nat) : Nat := pc / 512

/-- The number of a logical cluster's half. -/
def halfKey (pc : Nat) (half : Bool) : Nat := pc * 2 + half.toNat

/-- The number of an instruction word: in a folded tile step s of half h lies at word address 2s + h (R44). -/
def wordKey (folded : Bool) (pc : Nat) (half : Bool) (bp step : Nat) : Nat :=
  pc * 131072 + bp * 2048 + (if folded then 2 * step + half.toNat else step)

/-- The tagged operations of a stack that FAR reads hold (R164). -/
def tagsUsed (s : State) (die : Nat) : Nat :=
  s.eng.mmp.foldl (fun n e => if e.1 / 32 / 32 = die then n + (e.2.flying.filter (fun a => a.far)).length else n) 0

/-- The ports of a range lose their registers, queues and buffers. FAR reads in flight go on, and their results will be discarded (R64,
R66, R169). -/
def clearMmps (l : Map MmpPort) (inRange : Nat → Bool) : Map MmpPort :=
  l.filterMap (fun e =>
    let far := (e.2.flying.filter (fun a => a.far)).map (fun a => { a with dead := true })
    if ¬ inRange e.1 then some e
    else if far.isEmpty then none else some (e.1, { MmpPort.empty with flying := far }))

/-- Every port is as the tick finds it. -/
def clearAllMmps (s : State) : State := { s with eng := { s.eng with mmp := clearMmps s.eng.mmp (fun _ => true) } }

/-- Every read in flight belongs to a cycle that has stopped (R169). -/
def killReads (l : Map MmpPort) : Map MmpPort :=
  l.map (fun e => (e.1, { e.2 with flying := e.2.flying.map (fun a => { a with dead := true }) }))

/-- Write an instruction word: it has no error after that. -/
def writeImem (s : State) (key : Nat) (w : BitVec 80) : State :=
  { s with eng := { s.eng with imem := mset s.eng.imem 0 key w, imemErr := mset s.eng.imemErr 0 key 0 } }

/-- The location word of R197. -/
def locWord (dev die tile cluster bp step lc : Nat) : Nat :=
  dev * 2 ^ 55 + die * 2 ^ 53 + tile * 2 ^ 48 + cluster * 2 ^ 44 + bp * 2 ^ 38 + step * 2 ^ 27 + lc * 2 ^ 16

/-- The location of an instruction word of this device (R80). -/
def locOf (s : State) (pc : Nat) (half : Bool) (bp step : Nat) : Nat :=
  locWord (getF s DEV_ID) (pc / 512) (pc / 16 % 32) (pc % 16) bp step (mget s.eng.lc 0 (halfKey pc half))

/-- The location that names the device only. -/
def locDevice (s : State) : Nat := locWord (getF s DEV_ID) 0 0 0 0 0 0

/-! ## Events (R488 to R493) -/

/-- The pending bit of an event source that is not a queue group (R499). -/
def evPend (e : Nat) : Field := fld 0x20000 e 1 .w1c 0

/-- The pending bit of a queue (R499). -/
def queuePend (q : Nat) : Field := fld 0x28000 q 1 .w1c 0

/-- Is a source pending? A queue group is the OR of its 16 queues (R491). -/
def pendingEv (s : State) (e : Nat) : Bool :=
  if 1280 ≤ e ∧ e < 3328 then (List.range 16).any (fun i => flag s (queuePend ((e - 1280) * 16 + i)))
  else flag s (evPend e)

/-- A pending bit has gone from 0 to 1: send the MSI-X message of its route when EN is set; a message for a masked
vector is held in the pending bit array (R491, R492). -/
def sendMsi (s : State) (e : Nat) : State :=
  if flag s (EVR_EN e) then
    let v := getF s (EVR_VECTOR e)
    if mget s.ctl.msixMask false v then { s with ctl.msixPba := mset s.ctl.msixPba false v true }
    else { s with ctl.msixSent := mset s.ctl.msixSent 0 v (mget s.ctl.msixSent 0 v + 1) }
  else s

/-- Raise an event source (R491). -/
def raiseEv (s : State) (e : Nat) : State :=
  if flag s (evPend e) then s else sendMsi (setFlag s (evPend e) true) e

/-- Raise the group event of a queue: its pending bit, and the group's message on its 0 to 1 change (R367). -/
def raiseQueueEv (s : State) (q : Nat) : State :=
  let e := 1280 + q / 16
  let was := pendingEv s e
  let s1 := setFlag s (queuePend q) true
  if was then s1 else sendMsi s1 e

/-- Kinds of tile event (R489). -/
def tileEv (t kind : Nat) : Nat := 768 + (t / 32) * 128 + (t % 32) * 4 + kind

/-- Kinds of link event (R309). -/
def linkEv (n kind : Nat) : Nat := n * 8 + kind

def evFault : Nat := 3328
def evStop : Nat := 3329
def evOverrun : Nat := 3330
def evCommitStall : Nat := 3331
def evFreeze : Nat := 3332
def evGopLate : Nat := 3333
def evHopExceed : Nat := 3334
def evCycleLimit : Nat := 3335
def evTimeState : Nat := 3336
def evTimeConflict : Nat := 3337
def evCmpFired (j : Nat) : Nat := 3338 + j
def evHaltDiscrepancy : Nat := 3346
def evHaltStop : Nat := 3347
def evAcqTrigger : Nat := 3348
def evAcqDone : Nat := 3349
def evMaskViolation : Nat := 3350
def evTrcOverflow : Nat := 3351
def evTafCfgUncorr : Nat := 3352
def evTafCorrMem : Nat := 3353
def evSecAlarm : Nat := 3354
def evHbmCorr (d : Nat) : Nat := 3355 + d
def evHubCorrMem : Nat := 3359
def evLoadDone : Nat := 3360
def evMuleSwitch : Nat := 3361
def evLateCompletion : Nat := 3362
def evFenceForced : Nat := 3363
def evWdogWarn : Nat := 3364
def evThermal : Nat := 3365
def evPowerState : Nat := 3366
def evCrDone (r : Nat) : Nat := 3367 + r

/-! ## Run states (R141) and stop causes (R146) -/

def stIdle : Nat := 0
def stStopped : Nat := 1
def stRunning : Nat := 2
def stFaulted : Nat := 3
def stFrozen : Nat := 4

/-- The run state. -/
def runState (s : State) : Nat := getF s SEQ_STATE

/-! ## Faults (R82, R83, R197 to R199) -/

def fcIllegalOp : Nat := 0x0101
def fcEccUncorr : Nat := 0x0102
def fcDoubleWrite : Nat := 0x0103
def fcSlotLimit : Nat := 0x0104
def fcStateRange : Nat := 0x0105
def fcSendLimit : Nat := 0x0106
def fcPortUnbound : Nat := 0x0107
def fcPortRepeat : Nat := 0x0108
def fcRouteUnbound : Nat := 0x0201
def fcRecvShared : Nat := 0x0202
def fcBridgeDown : Nat := 0x0203
def fcDeadlock : Nat := 0x0301
def fcBlockTable : Nat := 0x0302
def fcMmpRange : Nat := 0x0401
def fcMmpAddr : Nat := 0x0402
def fcMmpAuth : Nat := 0x0403
def fcTileNotLoaded : Nat := 0x0501
def fcHubMemUncorr : Nat := 0x0601
def fcHaltDiscrepancy : Nat := 0x0602
def fcWatchdog : Nat := 0x0603

/-- No fault record is held. -/
def faultFree (s : State) : Bool := getF s FAULT_CODE == 0

/-- Write the fault record and raise FAULT. In a commit phase it carries the incremented cycle number (R134). -/
def writeFault (s : State) (code loc : Nat) : State :=
  raiseEv (setFs s [(FAULT_CODE, code), (FAULT_CYCLE, getF s CYCLE_NUM + (flag s IN_COMMIT).toNat), (FAULT_LOC, loc)]) evFault

/-- A fault found now fills the record: an empty one, or one that holds HALT_DISCREPANCY of an earlier cycle, for a fault of another
code (R83, R198). -/
def fillsRecord (s : State) (code : Nat) : Bool :=
  faultFree s || (getF s FAULT_CODE == fcHaltDiscrepancy && code != fcHaltDiscrepancy
    && getF s FAULT_CYCLE != getF s CYCLE_NUM + (flag s IN_COMMIT).toNat)

/-- Record a fault: the first is kept, and a later one counts (R83, R198). -/
def recordFault (s : State) (code loc : Nat) : State :=
  if fillsRecord s code then writeFault { s with cyc := { s.cyc with faultAt := none } } code loc
  else addF s FAULT_OVERFLOW 1

/-- One pair comes before another: by the first component, then by the second. -/
def pairBefore (a b : Nat × Nat) : Bool := decide (a.1 < b.1) || (a.1 == b.1 && decide (a.2 < b.2))

/-- Record a fault that a step raises in step clock `c` of the cycle. The record holds the one detected first; faults of one step clock
are ordered by location word (R83). -/
def recordStepFault (s : State) (code loc c : Nat) : State :=
  let mark := fun (x : State) => { x with cyc := { x.cyc with faultAt := some (c, loc) } }
  if fillsRecord s code then mark (recordFault s code loc)
  else
    match s.cyc.faultAt with
    | some old => if pairBefore (c, loc) old then mark (setFs (addF s FAULT_OVERFLOW 1) [(FAULT_CODE, code), (FAULT_LOC, loc)])
      else addF s FAULT_OVERFLOW 1
    | none => addF s FAULT_OVERFLOW 1

/-- Local time in nanoseconds. -/
def nowNs (s : State) : Nat := s.time.sec.toNat * 1000000000 + s.time.ns

/-- Nanoseconds that have passed by the time clock, whatever steps of time there were. -/
def elapsedNs (s : State) : Nat := 2 * s.time.periods

/-! ## The host link (R15, R338) -/

/-- The function whose requester ID the DMA of a partition's queues carries: VF p, or the PF for partition 0. -/
def fnOfPart (p : Nat) : Nat := if p = 0 then 0 else p + 1

/-- A DMA on the host link carries the requester ID of function `fn`. -/
def hostAsk (s : State) (fn : Nat) : State := { s with qs := { s.qs with requester := fn } }

/-- Write a list of bytes into host memory. -/
def hostWriteList (s : State) (fn a : Nat) (l : List Byte) : State := hostAsk { s with host := wrList s.host a l } fn

/-- Write `n` bytes of a number into host memory. -/
def hostWrite (s : State) (fn a n v : Nat) : State := hostAsk { s with host := wrBytes s.host a n v } fn

/-! ## Comparators taken by another owner (R329, R330) -/

/-- Arm or disarm a comparator. -/
def setArmed (s : State) (j : Nat) (b : Bool) : State :=
  { s with time := { s.time with armed := mset s.time.armed false j b } }

/-- Another owner takes a comparator: the host's setting is discarded (R330). -/
def takeCmp (s : State) (j : Nat) : State :=
  setArmed (setFs s [(CMP_MODE j, 0), (CMP_ACTION j, 0), (CMP_FIRED j, 0), (CMP_TARGET_NS j, 0), (CMP_TARGET_SEC j, 0),
    (CMP_PERIOD_NS j, 0)]) j false

/-! ## Comparator 6 of the global operations (R262, R330) -/

/-- A time-scheduled operation is pending. -/
def opPending (g : Gop) : Bool := g.byTime && g.state != 3 && !g.agreed

/-- Who owns a comparator: 1 PACE, 2 global operations, 0 the host (R330). -/
def cmpOwner (s : State) (j : Nat) : Nat :=
  if j = 7 ∧ flag s SEQ_MODE then 1
  else if j = 6 ∧ s.sys.ops.any opPending then 2
  else 0

/-- T of an operation in nanoseconds, and D of R328 for it. -/
def opTarget (g : Gop) : Nat := g.sec * 1000000000 + g.ns
def opDelta (s : State) (g : Gop) : Int := signedOf 64 (((nowNs s : Int) - (opTarget g : Int)) % (2 ^ 64 : Int)).toNat

/-- The operation with the earliest T of a list. -/
def earliestOp (s : State) (l : List Gop) : Option Gop :=
  l.foldl (fun b g => match b with | some x => if opDelta s x < opDelta s g then some g else b | none => some g) none

/-- Comparator 6 stands armed at the earliest pending T that it has not fired for (R330). -/
def armOps (s : State) : State :=
  match earliestOp s (s.sys.ops.filter (fun g => opPending g && !g.fired)) with
  | some g => setFs s [(CMP_TARGET_SEC 6, g.sec), (CMP_TARGET_NS 6, g.ns)]
  | none => s

/-- A pending operation whose T has been reached. -/
def opReached (s : State) (g : Gop) : Bool := opPending g && decide (0 ≤ opDelta s g)

/-- Comparator 6 fires for each pending operation whose T has been reached, and stands at the next. -/
def fireOps (s : State) : State :=
  if s.sys.ops.any (fun g => opReached s g && !g.fired) then
    armOps { s with sys := { s.sys with ops := s.sys.ops.map (fun g => if opReached s g then { g with fired := true } else g) } }
  else s

/-! ## Security alarms (R434) -/

/-- Causes of an alarm (R449). -/
def alTag : Nat := 1
def alUnwrap : Nat := 2
def alSig : Nat := 3

/-- Gander raises SEC_ALARM: ALARM is set, an empty log filled, the alarm counted (R434). -/
def secAlarm (s : State) (cause cls part stack line : Nat) : State :=
  let s1 := if flag s ALARM then s
    else setFs s [(ALARM_CAUSE, cause), (ALARM_CLASS, cls), (ALARM_PARTITION, part), (ALARM_STACK, stack),
      (ALARM_CYCLE, getF s CYCLE_NUM), (ALARM_LINE, line)]
  raiseEv (addF (setFlag s1 ALARM true) ALARM_COUNT 1) evSecAlarm

/-- A refusal for rights is counted and raises no alarm (R434). -/
def refuseRights (s : State) : State := addF s RIGHT_REFUSALS 1

end Sys2Proof.Machine
end

