-- ==== Sys2Proof/Machine/Lines.lean ====
section
/-!
DEFINITION. Partitions, rights and the lines of HBM (R418 to R436): who owns a line, under which key its tag was
made, and what a requester may do.
-/
namespace Sys2Proof.Machine
open Sys2Proof Reg

/-! ## Rights (R420, R421) -/

/-- RIGHTS[r][q] (R449). -/
def RIGHTS (r q : Nat) : Field := fld (0x6400 + q * 16 + r) 0 6 .ro 0

def rtObserve : Nat := 0
def rtForce : Nat := 1
def rtCapture : Nat := 2
def rtTrace : Nat := 3
def rtSnapshot : Nat := 4
def rtDebugMem : Nat := 5

/-- The effective rights of requester partition `r` on partition `q` (R421). -/
def effRights (s : State) (r q : Nat) : Nat :=
  let base := if r = q ∨ r = 0 then 0x3F else getF s (RIGHTS r q)
  if flag s (SEALED q) then base &&& getF s (SEAL_RIGHTS q) else base

/-- Partition `r` holds a right on partition `q`. -/
def holdsRight (s : State) (r q right : Nat) : Bool := bitOf (effRights s r q) right

/-! ## Regions (R418, R449) -/

/-- Lines of the usable space of a stack (R419). -/
def usableLines : Nat := 0x1F800000

/-- A line of a stack lies in a partition's HBM region. -/
def lineOfPartition (s : State) (p st line : Nat) : Bool :=
  decide (getF s (HBM_BASE p st) ≤ line) && decide (line < getF s (HBM_BASE p st) + getF s (HBM_LINES p st))

/-- The partition whose region holds a line. -/
def ownerOfLine (s : State) (st line : Nat) : Option Nat := (List.range 16).find? (fun p => lineOfPartition s p st line)

/-- A range of lines, as an offset in a partition's region, lies in that region. -/
def rangeInRegion (s : State) (p st off n : Nat) : Bool := decide (off + n ≤ getF s (HBM_LINES p st))

/-- A line lies in one of its owner's snapshot areas (R271, R431). -/
def inSnapArea (s : State) (p st line : Nat) : Bool :=
  (List.range 4).any (fun slot =>
    let a := ((mget s.sys.snap .empty (p * 4 + slot)).areas).getD st (0, 0)
    decide (getF s (HBM_BASE p st) + a.1 ≤ line) && decide (line < getF s (HBM_BASE p st) + a.1 + a.2))

/-! ## Keys and tags (R431 to R435) -/

/-- The key under which partition `p` reaches a line now: the snapshot keys in a snapshot area, else the working keys,
the old ones at and above the boundary of a re-key (R431, R442). Each key has a number of its own; 0 is no key. -/
def keyOfLine (s : State) (p st line : Nat) : Nat :=
  if inSnapArea s p st line then mget s.sec.snapKey 0 p
  else
    let old := mget s.sec.oldGen 0 (p * 4 + st)
    if old ≠ 0 ∧ getF s (RK_BOUNDARY st) ≤ line ∧ line < getF s (RK_END st) then 2 * old
    else 2 * mget s.sec.gen 0 (p * 4 + st)

/-- The key under which a line was last written: the newest range that holds it; 0 for none. -/
def stampOf (s : State) (st line : Nat) : Nat :=
  match s.sec.stamps.find? (fun r => r.stack == st && decide (r.first ≤ line) && decide (line < r.first + r.count)) with
  | some r => r.key
  | none => 0

/-- The tag of a line verifies for partition `p` (R433, R435). -/
def tagGood (s : State) (p st line : Nat) : Bool :=
  let k := keyOfLine s p st line
  k != 0 && stampOf s st line == k

/-! ### Line encryption (R215, R431 to R433)

`State.hbm` holds the plaintext of each line, and a stamp the number of the keys under which it was last written; the ciphertext and the
tag follow from the two. -/

/-- The string M of R215: a counter, a label of 10 bytes, IMAGE_ID, LDEV, a segment and an output length in bits. -/
def kdfString (counter : Nat) (label image : List Byte) (ldev segment bits : Nat) : List Byte :=
  Crypto.beBytes 4 counter ++ label ++ [0] ++ image ++ Crypto.beBytes 2 ldev ++ Crypto.beBytes 4 segment ++ Crypto.beBytes 4 bits

def labelSnapKey : List Byte := [0x53, 0x4B, 0x39, 0x36, 0x2D, 0x53, 0x4E, 0x41, 0x50, 0x4B]
def labelSnapTag : List Byte := [0x53, 0x4B, 0x39, 0x36, 0x2D, 0x53, 0x4E, 0x41, 0x50, 0x54]

/-- The number of the snapshot keys of an image, and what it is made of. -/
def snapNumber (kr : BitVec 256) (image ldev : Nat) : Nat := 2 * ((kr.toNat * 2 ^ 128 + image) * 512 + ldev) + 1
def snapRoot (k : Nat) : List Byte := leBytes 32 (k / 2 / 512 / 2 ^ 128)
def snapImage (k : Nat) : List Byte := leBytes 16 (k / 2 / 512)
def snapLdev (k : Nat) : Nat := k / 2 % 512

/-- The data-key pair of a number: K_SNAP of an odd one, K_MEM of an even one. -/
def dataKey (k : Nat) : List Byte :=
  if k % 2 = 1 then
    let f := fun (c : Nat) => Crypto.hmac (snapRoot k) (kdfString c labelSnapKey (snapImage k) (snapLdev k) 0 0x200)
    (f 1 ++ f 2).take 64
  else leBytes 64 (Config.memoryKey (k / 2)).toNat

/-- The tag key of a number: K_STAG or K_TAG. -/
def tagKey (k : Nat) : List Byte :=
  if k % 2 = 1 then (Crypto.hmac (snapRoot k) (kdfString 1 labelSnapTag (snapImage k) (snapLdev k) 0 0x100)).take 32
  else leBytes 32 (Config.tagKey (k / 2)).toNat

/-- The data unit number of a line of partition `p` (R432). -/
def unitNumber (p st line : Nat) : Nat := line + st * 2 ^ 30 + p * 2 ^ 32

/-- The ciphertext of a line, the plaintext of a ciphertext, and the tag of a ciphertext, under the keys of number `k`. -/
def sealLine (k p st line : Nat) (plain : List Byte) : List Byte := Crypto.xtsEncrypt (dataKey k) (unitNumber p st line) plain
def openLine (k p st line : Nat) (cipher : List Byte) : List Byte := Crypto.xtsDecrypt (dataKey k) (unitNumber p st line) cipher
def lineTag (k p st line : Nat) (cipher : List Byte) : List Byte :=
  (Crypto.gcmTag (tagKey k) (leBytes 12 (unitNumber p st line)) cipher []).take 8

/-- What the stack holds for a line of partition `p` with a given plaintext: ciphertext and tag under the keys it was last written with. -/
def rawLine (s : State) (p st line : Nat) (plain : List Byte) : List Byte :=
  let c := sealLine (stampOf s st line) p st line plain
  c ++ lineTag (stampOf s st line) p st line c

/-- A ciphertext with its tag verifies as a line of partition `p` now, and its plaintext. -/
def rawGood (s : State) (p st line : Nat) (raw : List Byte) : Bool :=
  let k := keyOfLine s p st line
  k != 0 && raw.drop 64 == lineTag k p st line (raw.take 64)
def rawPlain (s : State) (p st line : Nat) (raw : List Byte) : List Byte := openLine (keyOfLine s p st line) p st line (raw.take 64)

/-- The plaintext bytes of a line that stands in HBM (R432). -/
def plainLine (s : State) (st line : Nat) : List Byte := rdList s.hbm (st * 2 ^ 36 + line * 64) 64

/-- The ciphertext and tag of a line of partition `p` that stands in HBM. -/
def storedLine (s : State) (p st line : Nat) : List Byte := rawLine s p st line (plainLine s st line)

/-- Lines are written under a key: their tags are made anew (R433). -/
def stampRange (s : State) (st first count key : Nat) : State :=
  { s with sec := { s.sec with stamps := ⟨st, first, count, key⟩ :: s.sec.stamps } }

/-- A line is written by its owner `p`. -/
def stampLine (s : State) (p st line : Nat) : State :=
  let k := keyOfLine s p st line
  if stampOf s st line = k then s else stampRange s st line 1 k

/-- The lines from `first` on are written by their owner. -/
def stampLines (s : State) (p st first : Nat) : Nat → State
  | 0 => s
  | n + 1 => stampLines (stampLine s p st first) p st (first + 1) n

/-- Every line of a range has a valid tag for partition `p`: the lines where the newest writer may change are looked at. -/
def rangeGood (s : State) (p st first count : Nat) : Bool :=
  count == 0 ||
    (first :: s.sec.stamps.flatMap (fun r => [r.first, r.first + r.count])).all (fun l =>
      decide (l < first) || decide (first + count ≤ l) || tagGood s p st l)

/-- The address of byte `a` of stack `die` in the HBM memory. -/
def hbmAddr (die a : Nat) : Nat := die * 2 ^ 36 + a

/-- The tag of a line that device DMA of its owner reads fails: Gander is told (R434). -/
def dmaAlarm (s : State) (p st line : Nat) : State := secAlarm s alTag 3 p st line

/-- The bytes of a write from byte `a` of a stack on that go into one line. -/
def lineBytes (a : Nat) (l : List Byte) (line : Nat) : List Byte := (l.drop (line * 64 - a)).take (64 - (a - line * 64))

/-- Device DMA writes into one line: a line that is not written whole is read, and with a tag that does not verify it stays as it is
(R433, R434). -/
def dmaLine (s : State) (p st a : Nat) (l : List Byte) (line : Nat) : State :=
  let b := lineBytes a l line
  if b.length < 64 ∧ tagGood s p st line = false then dmaAlarm s p st line
  else stampLine { s with hbm := wrList s.hbm (hbmAddr st (max a (line * 64))) b } p st line

/-- Device DMA of partition `p` into stack `st` at byte `a`: refused outside the partition's region, else the bytes are
written and their lines' tags made anew (R422, R433, R437). -/
def dmaWrite (s : State) (p st a : Nat) (l : List Byte) : State :=
  let ls := (List.range ((a % 64 + l.length + 63) / 64)).map (a / 64 + ·)
  if ls.all (lineOfPartition s p st) then ls.foldl (fun x line => dmaLine x p st a l line) s else refuseRights s

end Sys2Proof.Machine
end

