-- ==== Sys2Proof/Machine/Open.lean ====
section
/-!
DEFINITION. Open values whose type is one of the machine's: snapshots whose contents the manual leaves undefined, or that
the device reads under keys that the model does not compute.
-/
namespace Sys2Proof.Config
open Sys2Proof Sys2Proof.Machine

/-- What a device holds after a RESTORE that failed a tag (R436), by draw. -/
opaque openSnapshot (draw : Nat) : Snapshot

/-- What the plaintext of the copies imported into a slot stands for, beside what the slot holds already: the manual gives no layout of
the lines (R445, R446). -/
opaque importedSnapshot (slot : Nat) (held : Option Snapshot) (copies : List (Nat × List Byte)) : Snapshot

/-- What the active pair of Mule cores retires in a period, by draw: the firmware is no part of the manual (R387). -/
opaque muleRetired (draw : Nat) (pair : Bool) : List MuleEvent

/-- The PC and data address of a pair of Mule cores, by draw (R391). -/
opaque mulePoint (draw : Nat) (pair : Bool) : BitVec 128

end Sys2Proof.Config

namespace Sys2Proof.Machine
open Sys2Proof

/-- A snapshot with its tables and memories in canonical form. -/
def normalSnapshot (c : Snapshot) : Snapshot :=
  { c with cur := mnorm false c.cur, slot := mnorm false c.slot, recv := mnorm [] c.recv, credit := mnorm 5 c.credit,
           detached := mnorm false c.detached, substitute := mnorm false c.substitute, mem := mnorm 0 c.mem, hbm := mnorm 0 c.hbm,
           msgs := mnorm .empty c.msgs, queues := mnorm .empty c.queues, asm := mnorm none c.asm, tout := mnorm false c.tout, sched := mnorm 0 c.sched }

end Sys2Proof.Machine
end

