-- ==== Sys2Proof/Machine/Trace.lean ====
section
/-!
DEFINITION. The trace funnel (R385 to R392): source FIFOs, packets, sync points and the three sinks.
-/
namespace Sys2Proof.Machine
open Sys2Proof Reg

/-! ## Sources (R385, R386) -/

def srcSeq (d : Nat) : Nat := 1 + d
def srcMule (c : Nat) : Nat := 8 + c
def srcTe : Nat := 0x10
def srcLink (t : Nat) : Nat := 0x20 + t

/-- LINK_MASK holds trunk `t` (R395). -/
def linkMasked (s : State) (t : Nat) : Bool :=
  bitOf (getF s (if t < 32 then LINK_MASK0 else if t < 64 then LINK_MASK1 else LINK_MASK2)) (t % 32)

/-- A source is enabled: its own bits, and for Mule and the link engines an owner that is partition 0 (R386, R387). -/
def srcEnabled (s : State) (src : Nat) : Bool :=
  flag s TRC_EN &&
    (if 1 ≤ src ∧ src ≤ 4 then getF s TRC_SEQ_LEVEL != 0
     else if 8 ≤ src ∧ src ≤ 11 then bitOf (getF s TRC_MULE_EN) (src - 8) && getF s TRC_OWNER == 0
     else if src = srcTe then flag s TRC_TE_EN
     else if 0x20 ≤ src ∧ src < 0x80 then flag s TRC_LINK_EN && linkMasked s (src - 0x20) && getF s TRC_OWNER == 0
     else false)

/-- The owner of the trace holds TRACE on a partition. -/
def traceAllowed (s : State) (q : Nat) : Bool := holdsRight s (getF s TRC_OWNER) q rtTrace

/-- Bytes of a packet. -/
def packetLen (p : Nat × List Byte) : Nat := 4 + p.2.length

def fifoOf (s : State) (src : Nat) : List (Nat × List Byte) := mget s.trc.fifo [] src

def fifoBytes (s : State) (src : Nat) : Nat := (fifoOf s src).foldl (fun n p => n + packetLen p) 0

def lostOf (s : State) (src : Nat) : Nat := mget s.trc.lost 0 src

/-- TRC_LOST grows by the bytes lost (R388, R392). -/
def countLost (s : State) (n : Nat) : State := addF s TRC_LOST n

/-- A packet fits the FIFO of 4 KiB of its source (R388). -/
def fitsFifo (s : State) (src : Nat) (p : Nat × List Byte) : Bool := decide (fifoBytes s src + packetLen p ≤ 4096)

/-- A source forms a packet: into its FIFO, or lost (R388). -/
def formPacket (s : State) (src type : Nat) (payload : List Byte) : State :=
  if ¬ srcEnabled s src then s
  else
    let p := (type, payload)
    if fitsFifo s src p then
      { s with trc := { s.trc with fifo := mset s.trc.fifo [] src (fifoOf s src ++ [p]) } }
    else countLost { s with trc := { s.trc with lost := mset s.trc.lost 0 src (lostOf s src + packetLen p) } } (packetLen p)

/-! ## Packets of the sources (R387, R390) -/

/-- A die sequencer's packets of a cluster at a level are formed: the level is in force, the cluster is in the die's select
list, and the owner holds TRACE on its partition (R386, R387). -/
def seqTraced (s : State) (pc : Nat) (half : Bool) (level : Nat) : Bool :=
  decide (level ≤ getF s TRC_SEQ_LEVEL) && traceAllowed s (getF s (TILE_PARTITION (pc / 16)))
    && (List.range 16).any (fun k => flag s (SEL_VALID (pc / 512) k) && getF s (SEL_PC (pc / 512) k) == pc % 512
      && flag s (SEL_HALF (pc / 512) k) == half)

/-- PC+H. -/
def pcHalf (pc : Nat) (half : Bool) : List Byte := leBytes 2 (pc % 512 + half.toNat * 512)

/-- A free value of a packet: a time in step clocks, which the model does not keep. -/
def freeBytes (s : State) (n : Nat) : List Byte := leBytes n (Config.freeValue (8 * n) s.free).toNat

/-- BLOCK: a block taken or skipped. OFFSET is the step clock in which the cluster decides it; that of a block that the tick decides is
free (log entry 52). -/
def traceBlock (s : State) (pc : Nat) (half : Bool) (block : Nat) (taken : Bool) (decided : Option Nat) : State :=
  if seqTraced s pc half 2 then
    formPacket (drawFree s) (srcSeq (pc / 512)) 0x11
      (pcHalf pc half ++ leBytes 1 block ++ leBytes 1 (taken.toNat + 2 * decided.isSome.toNat)
        ++ (match decided with | some c => leBytes 2 c | none => freeBytes s 2))
  else s

/-- HOLD: the end of a hold; its length is in step clocks. -/
def traceHold (s : State) (pc : Nat) (half : Bool) (kind step len detail : Nat) : State :=
  if seqTraced s pc half 3 then
    formPacket s (srcSeq (pc / 512)) 0x12
      (pcHalf pc half ++ leBytes 1 kind ++ leBytes 2 step ++ leBytes 4 len ++ leBytes 2 detail)
  else s

/-- CANCEL: a speculative block's fetched words are cancelled (R126). -/
def traceCancel (s : State) (pc : Nat) (half : Bool) (block word : Nat) : State :=
  if seqTraced s pc half 3 then
    formPacket s (srcSeq (pc / 512)) 0x13 (pcHalf pc half ++ leBytes 1 block ++ leBytes 2 word)
  else s

/-- A packet of the transaction engine about a queue. -/
def traceQueue (s : State) (q type : Nat) (payload : List Byte) : State :=
  if traceAllowed s (getF s (Q_PARTITION q)) then formPacket s srcTe type payload else s

/-- Q_DROP. -/
def traceDrop (s : State) (q reason : Nat) : State := traceQueue s q 0x34 (leBytes 2 q ++ leBytes 1 reason)

/-- SYSMSG: a system message sent or received on a trunk, from its payload. A HELLO names its device and has neither SEQ
nor round. -/
def traceSys (s : State) (t dir : Nat) (p : BitVec 224) : State :=
  let c := bitsOf p.toNat 0 8
  formPacket s (srcLink t) 0x44 (leBytes 1 dir ++ leBytes 1 c ++ leBytes 2 (bitsOf p.toNat 8 9)
    ++ leBytes 1 (if c = 0x40 then 0 else bitsOf p.toNat 17 8) ++ leBytes 1 (if c = 0x42 then bitsOf p.toNat 25 6 else 0))

/-! ## Mule's packets (R387, R389 to R391) -/

/-- VARINT: 7 bits a byte, least significant group first, bit 7 set on every byte but the last (R389). -/
def varint (n : Nat) : List Byte :=
  let k := n.log2 / 7
  (List.range (k + 1)).map (fun i => BitVec.ofNat 8 (bitsOf n (7 * i) 7 + if i < k then 128 else 0))

/-- The zigzag code of a signed VARINT (R389). -/
def zigzag (v : Int) : Nat := if 0 ≤ v then 2 * v.toNat else 2 * (-v).toNat - 1

/-- The trace encoder of a Mule core. -/
def muleAt (s : State) (src : Nat) : MuleCore := mget s.trc.mule .empty src
def setMule (s : State) (src : Nat) (c : MuleCore) : State :=
  { s with trc := { s.trc with mule := mset s.trc.mule .empty src c } }

/-- The source of core `i` of a pair. -/
def pairSrc (b : Bool) (i : Nat) : Nat := srcMule (2 * b.toNat + i)

/-- A Mule core forms a packet after which addresses count from `ref`. `run` instructions have retired since the last FLOW; `rest` of them
count on after the packet. A packet that is lost moves nothing (log entry 52). -/
def formMule (s : State) (src type : Nat) (payload : List Byte) (run rest : Nat) (ref : Nat × Nat) : State :=
  let c := muleAt s src
  setMule (formPacket s src type payload) src
    (if fitsFifo s src (type, payload) then ⟨rest, c.refs ++ [ref]⟩ else ⟨run, c.refs⟩)

/-- FLOW, EXCEPT or DATA of an instruction that retires (R390). -/
def recordEvent (s : State) (src : Nat) (e : MuleEvent) : State :=
  let c := muleAt s src
  let r := c.refs.getLastD (0, 0)
  let delta := fun (x : BitVec 64) (base : Nat) => varint (zigzag ((x.toNat : Int) - base))
  match e with
  | .flow n t => formMule s src 0x20 (varint (c.icnt + n) ++ delta t r.1) (c.icnt + n) 0 (t.toNat, r.2)
  | .except n cause t => formMule s src 0x21 (cause :: delta t r.1) (c.icnt + n) (c.icnt + n) (t.toNat, r.2)
  | .data n store size a v =>
    formMule s src 0x22 (BitVec.ofNat 8 (store.toNat + 2 * size.toNat) :: (delta a r.2 ++ leBytes (2 ^ size.toNat) v.toNat))
      (c.icnt + n) (c.icnt + n) (r.1, a.toNat)

/-- One core of the active pair records what it has retired. -/
def recordCore (s : State) (src : Nat) (l : List MuleEvent) : State :=
  if srcEnabled s src then l.foldl (fun a e => recordEvent a src e) s else s

/-- The active pair retires instructions for a period: its two cores run in lockstep and record the same (R387, R488). -/
def retireMule (s : State) : State :=
  let b := flag s ACTIVE_PAIR
  if muleUp s && (srcEnabled s (pairSrc b 0) || srcEnabled s (pairSrc b 1)) then
    let l := Config.muleRetired s.trc.retired b
    recordCore (recordCore { s with trc := { s.trc with retired := s.trc.retired + 1 } } (pairSrc b 0) l) (pairSrc b 1) l
  else s

/-- A packet of a Mule core leaves its FIFO: the output now stands at the addresses after it. -/
def showRef (s : State) (src : Nat) : State :=
  match (muleAt s src).refs with
  | _ :: r :: l => setMule s src { muleAt s src with refs := r :: l }
  | _ => s

/-- The PC and DADDR of a sync packet: where the core is, drawn by `d`; with packets waiting, the addresses from which these count. -/
def syncRef (s : State) (d src : Nat) : Nat × Nat :=
  match (muleAt s src).refs with
  | r :: _ :: _ => r
  | _ =>
    let p := (Config.mulePoint d (srcMule 2 ≤ src)).toNat
    (bitsOf p 0 64, bitsOf p 64 64)

/-- A sync packet has been written: with no packet waiting, addresses count from the point it carries (R391). -/
def setSyncRef (s : State) (d src : Nat) : State :=
  match (muleAt s src).refs with
  | _ :: _ :: _ => s
  | _ => setMule s src { muleAt s src with refs := [syncRef s d src] }

def isMule (src : Nat) : Bool := srcMule 0 ≤ src && src ≤ srcMule 3

/-! ## Sinks (R392) -/

def sinkBuffer : Nat := 0
def sinkHbm : Nat := 1
def sinkHost : Nat := 2

/-- The sink in force: code 3 acts as BUFFER. -/
def sinkOf (s : State) : Nat := if getF s TRC_SINK = 3 then sinkBuffer else getF s TRC_SINK

/-- The bytes of the sink's ring. -/
def ringBytes (s : State) : Nat :=
  if sinkOf s = sinkBuffer then 0x800000
  else if sinkOf s = sinkHbm then getF s TRC_HBM_LINES * 64
  else 2 ^ (min (getF s TRC_HLOG2) 18 + 12)

/-- Store bytes at an offset of the ring. -/
def sinkStore (s : State) (off : Nat) (l : List Byte) : State :=
  if sinkOf s = sinkBuffer then { s with trc := { s.trc with buffer := wrList s.trc.buffer off l } }
  else if sinkOf s = sinkHbm then
    let st := getF s TRC_HBM_STACK
    let q := getF s TRC_OWNER
    dmaWrite s q st ((getF s (HBM_BASE q st) + getF s TRC_HBM_BASE) * 64 + off) l
  else hostWriteList s (fnOfPart (getF s TRC_OWNER)) (getF s TRC_HRING_ADDR * 4096 + off) l

/-- WPTR is written to HWB_ADDR (R392). -/
def writeWptr (s : State) : State :=
  if sinkOf s = sinkHost then hostWrite s (fnOfPart (getF s TRC_OWNER)) (getF s TRC_HWB_ADDR * 8) 8 (getF s TRC_WPTR) else s

/-- The output advances by `n` bytes. -/
def advanceOut (s : State) (n : Nat) : State :=
  let w := getF s TRC_WPTR
  let s1 := setF { s with trc := { s.trc with since := s.trc.since + n } } TRC_WPTR (w + n)
  if w / 4096 < (w + n) / 4096 then writeWptr s1 else s1

/-- The sink takes `n` more bytes: a host ring never overwrites what the host has not consumed; under STOP_FULL the others
stop at full and stay stopped (R392). -/
def sinkRoom (s : State) (n : Nat) : Bool :=
  let used := getF s TRC_WPTR
  if sinkOf s = sinkHost then decide (used - getF s TRC_HCONS + n ≤ ringBytes s)
  else decide (n ≤ ringBytes s) && (!flag s TRC_STOP_FULL || (!s.trc.stopped && decide (used + n ≤ ringBytes s)))

/-- PAD bytes from the write pointer on. -/
def padOut (s : State) (n : Nat) : State :=
  if n = 0 then s
  else advanceOut (sinkStore s (getF s TRC_WPTR % ringBytes s) (List.replicate n 0x80)) n

/-- Bytes left to the end of the ring. -/
def toEnd (s : State) : Nat := ringBytes s - getF s TRC_WPTR % ringBytes s

/-- PAD bytes before `n` bytes that would be split across the end of the ring. -/
def endPad (s : State) (n : Nat) : Nat := if toEnd s < n then toEnd s else 0

/-- The sink takes a packet of `n` bytes. -/
def sinkTakes (s : State) (n : Nat) : Bool := sinkRoom s (endPad s n + n)

/-- A packet of `n` bytes is lost; a sink under STOP_FULL stops (R392). -/
def losePacket (s : State) (n : Nat) : State :=
  let s1 := if sinkOf s ≠ sinkHost ∧ flag s TRC_STOP_FULL then
    setFlag { s with trc := { s.trc with stopped := true } } TRC_FULL true else s
  countLost s1 n

/-- Write the bytes of a packet, for which the sink has room (R392). -/
def writeRun (s : State) (l : List Byte) : State :=
  let s1 := padOut s (endPad s l.length)
  advanceOut (sinkStore s1 (getF s1 TRC_WPTR % ringBytes s1) l) l.length

/-- The bytes of a packet with its DT (R389). -/
def packetBytes (src type dt : Nat) (payload : List Byte) : List Byte :=
  leBytes 1 src ++ leBytes 1 type ++ leBytes 1 payload.length ++ leBytes 1 dt ++ payload

/-- The payload of a TIME packet. -/
def timePayload (s : State) : List Byte := leBytes 6 s.time.sec.toNat ++ leBytes 4 s.time.ns

/-- Time since the previous packet of the stream, in units of 4 ns (R389). -/
def sinceLast (s : State) : Nat := (elapsedNs s - s.trc.last) / 4

/-- Write one packet with a DT; time then counts from it. A packet without room is lost. -/
def putPacket (s : State) (src type dt : Nat) (payload : List Byte) : State :=
  let l := packetBytes src type dt payload
  if sinkTakes s l.length then writeRun { s with trc := { s.trc with last := elapsedNs s } } l else losePacket s l.length

/-- A TIME packet where the DT of the next packet would exceed 255; its own DT shows 255 at most (R389, log entry 52). -/
def keepTime (s : State) : State :=
  if 255 < sinceLast s then putPacket s 0 1 255 (timePayload s) else s

/-- One packet after that TIME packet; with the TIME packet lost, it is lost too. -/
def putAfter (s : State) (src type : Nat) (payload : List Byte) : State :=
  if 255 < sinceLast s then losePacket s (4 + payload.length) else putPacket s src type (sinceLast s) payload

/-- One packet of the stream (R389). -/
def outPacket (s : State) (src type : Nat) (payload : List Byte) : State := putAfter (keepTime s) src type payload

/-! ## Sync points (R391) -/

/-- Type and payload of a source's sync packet. -/
def syncPacket (s : State) (d src : Nat) : Nat × List Byte :=
  if 1 ≤ src ∧ src ≤ 4 then (0x1F, leBytes 6 (getF s CYCLE_NUM))
  else if isMule src then (0x2F, leBytes 8 (syncRef s d src).1 ++ leBytes 8 (syncRef s d src).2)
  else if src = srcTe then (0x3F, leBytes 6 (getF s CYCLE_NUM))
  else (0x4F, leBytes 1 (getF s (LSTATE (src - 0x20))) ++ leBytes 4 (getF s (RECOVER_COUNT (src - 0x20))))

/-- ALIGN: it starts on a 16-byte boundary of the output, behind PAD bytes and the TIME packet that may have to precede it. -/
def outAlign (s : State) : State :=
  let s1 := keepTime s
  let pad := (16 - getF s1 TRC_WPTR % 16) % 16
  if sinkRoom s1 (pad + 16) then putAfter (padOut s1 pad) 0 3 (List.replicate 12 0xA5) else losePacket s1 16

/-- The sync packet of a source. -/
def outSync (s : State) (d src : Nat) : State :=
  let p := syncPacket s d src
  outPacket (if isMule src then setSyncRef s d src else s) src p.1 p.2

/-- A sync point for the listed sources: ALIGN, TIME, one sync packet from each. -/
def syncPoint (s : State) (srcs : List Nat) : State :=
  srcs.foldl (fun a src => outSync a s.free src) (outPacket (outAlign (drawFree s)) 0 1 (timePayload s))

/-- The bytes of output until the next sync point count from here. -/
def restartSync (s : State) : State := { s with trc := { s.trc with since := 0 } }

/-- Every source, in ascending order of ID. -/
def allSources : List Nat := [1, 2, 3, 4, 8, 9, 10, 11, 0x10] ++ (List.range 96).map (fun t => 0x20 + t)

def enabledSources (s : State) : List Nat := allSources.filter (srcEnabled s)

/-- Something is in progress that forces sync points every 1,024 bytes: a load, a lane in TEST, a memory test, a
switchover, a trunk RECOVERING, a restore, the run state FAULTED or FROZEN (R391). -/
def syncForced (s : State) : Bool :=
  (decide (1 ≤ getF s LOAD_PHASE) && decide (getF s LOAD_PHASE ≤ 4))
    || (List.range 96).any (fun n => getF s (LANE_STATE n) == 9 || getF s (LSTATE n) == 3)
    || s.ctl.calls.any (fun c => c.opcode / 256 == 0x0C)
    || s.sys.restoring.isSome || getF s SEQ_STATE == 3 || getF s SEQ_STATE == 4
    || !(s.pw.boot == .up || s.pw.boot == .standby) || flag s SWITCHING

/-- The output bytes after which a sync point falls due; `none`: never. -/
def syncEvery (s : State) : Option Nat :=
  let p := getF s TRC_SYNC_PERIOD
  let own := if p = 0 then none else some (2 ^ (p + 9))
  if syncForced s then some (match own with | some n => min n 1024 | none => 1024) else own

/-! ## The funnel (R388) -/

/-- The next source to serve, from the turn on. -/
def nextSource (s : State) : Option Nat :=
  match allSources.find? (fun x => decide (s.trc.turn ≤ x) && !(fifoOf s x).isEmpty) with
  | some x => some x
  | none => allSources.find? (fun x => !(fifoOf s x).isEmpty)

/-- The funnel that goes idle writes WPTR (R392). -/
def goIdle (s : State) : State := if (nextSource s).isNone then writeWptr s else s

/-- Serve one whole packet, round robin (R388). -/
def serveOne (s : State) : State :=
  match nextSource s with
  | none => s
  | some src =>
    match fifoOf s src with
    | [] => s
    | p :: rest =>
      let s0 := { s with trc := { s.trc with fifo := mset s.trc.fifo [] src rest, turn := src + 1 } }
      goIdle (outPacket (if isMule src then showRef s0 src else s0) src p.1 p.2)

/-- Serve until every FIFO is empty; `n` bounds the packets. -/
def serveAll (s : State) : Nat → State
  | 0 => s
  | n + 1 => if (nextSource s).isNone then s else serveAll (serveOne s) n

/-- Packets that wait. -/
def packetsWaiting (s : State) : Nat := allSources.foldl (fun n x => n + (fifoOf s x).length) 0

/-- The funnel has drained to its sink. -/
def drainFunnel (s : State) : State := serveAll s (packetsWaiting s)

/-- Trace is enabled: WPTR counts from 0, and a sync point is written (R391, R395). The funnel keeps what it has accepted (R388). -/
def enableTrace (s : State) : State :=
  let s1 := setF { s with trc := { s.trc with last := elapsedNs s, stopped := false } } TRC_WPTR 0
  let s2 := setFlag s1 TRC_EN true
  goIdle (restartSync (syncPoint s2 (enabledSources s2)))

/-! ## Rows of the table -/

/-- The source whose losses are to be reported: its FIFO has room for OVERFLOW and its sync point (R388). -/
def overflowSource (s : State) : Option Nat :=
  allSources.find? (fun x => lostOf s x != 0 && decide (fifoBytes s x + 9 + 16 + 14 + 20 ≤ 4096))

/-- TRC_OVERFLOW: a source's FIFO has room again; the funnel writes OVERFLOW and a sync point of the source. -/
def execTrcOverflow (s : State) : Host.Outcome State Fault Refusal :=
  match overflowSource s with
  | none => .next s
  | some src =>
    let l := lostOf s src
    let s0 := { s with trc := { s.trc with lost := mset s.trc.lost 0 src 0 } }
    let s1 := outPacket s0 0 2 (leBytes 1 src ++ leBytes 4 (min l (maxOf 32)))
    let s2 := goIdle (syncPoint s1 [src])
    .next (raiseEv (setFlag s2 TRC_OVERFLOW_BIT true) evTrcOverflow)

/-- SYNC_POINT: the output count has reached the sync period (R391). -/
def execSyncPoint (s : State) : Host.Outcome State Fault Refusal :=
  match syncEvery s with
  | none => .next s
  | some n => if flag s TRC_EN ∧ n ≤ s.trc.since then .next (goIdle (restartSync (syncPoint s (enabledSources s)))) else .next s

end Sys2Proof.Machine
end

