-- ==== Sys2Proof/Machine/Operands.lean ====
section
/-!
DEFINITION. The instruction word of a BP and its operands: the fields of the four formats (R47 to R51), the opcode
table (R53), the net space as operands read it (R89 to R95), the step blocks (R118 to R124), and the holds of a
step (R43).
-/
namespace Sys2Proof.Machine
open Sys2Proof Reg

/-! ## Fields of an instruction word (R47 to R51) -/

/-- Bits [lo + n - 1 : lo] of an instruction word. -/
def wf (w : BitVec 80) (lo n : Nat) : Nat := bitsOf w.toNat lo n

def opcOf (w : BitVec 80) : Nat := wf w 75 5
def sndOf (w : BitVec 80) : Bool := w.getLsbD 74
def capOf (w : BitVec 80) : Bool := w.getLsbD 73
def cnsOf (w : BitVec 80) : Bool := w.getLsbD 72
def dstOf (w : BitVec 80) : Nat := wf w 61 11
def aOf (w : BitVec 80) : Nat := wf w 50 11
def bOf (w : BitVec 80) : Nat := wf w 39 11
def cOf (w : BitVec 80) : Nat := wf w 28 11
def dOf (w : BitVec 80) : Nat := wf w 17 11
def ttOf (w : BitVec 80) : Nat := wf w 0 16
def portOf (w : BitVec 80) : Nat := wf w 45 5
def selOf (w : BitVec 80) : Bool := w.getLsbD 44
def bitIdxOf (w : BitVec 80) : Nat := wf w 36 8
def seqOf (w : BitVec 80) : Nat := wf w 30 6

/-- The state address of LDS (R49) or STS (R50). -/
def saddrOf (w : BitVec 80) : Nat := if opcOf w = 0x02 then wf w 45 16 else wf w 34 16

/-- The opcode codes of R53. -/
def opNop : Nat := 0x00
def opEval : Nat := 0x01
def opLds : Nat := 0x02
def opSts : Nat := 0x03
def opEvalm : Nat := 0x04
def opMpa : Nat := 0x08
def opMpg : Nat := 0x09
def opMpr : Nat := 0x0A
def opMsr : Nat := 0x0C
def opMsw : Nat := 0x0D
def opMsp : Nat := 0x0E
def opChk : Nat := 0x10
def opStopc : Nat := 0x11
def opTpo : Nat := 0x12
def opTpi : Nat := 0x13

/-- Illegal codes (R54): 0x05 to 0x07, 0x0B, 0x0F and 0x14 to 0x1F. -/
def illegalOpc (o : Nat) : Bool := (0x05 ≤ o && o ≤ 0x07) || o == 0x0B || o == 0x0F || 0x14 ≤ o

/-- The operand slots an opcode reads (R53). -/
def readsOf (w : BitVec 80) : List Nat :=
  let o := opcOf w
  if o = opEval ∨ o = opEvalm then [aOf w, bOf w, cOf w, dOf w]
  else if o = opChk then [aOf w, bOf w, cOf w]
  else if o = opSts ∨ o = opMpa ∨ o = opMpg ∨ o = opMsw ∨ o = opMsp ∨ o = opStopc ∨ o = opTpo then [aOf w]
  else []

/-- The opcode writes DST, always or under net D (R53, R55). -/
def writesDst (w : BitVec 80) : Bool := [opEval, opLds, opEvalm, opMpr, opMsr, opTpi].contains (opcOf w)

/-- The opcode has a result bit for SND and CAP (R53, R76). -/
def hasResult (w : BitVec 80) : Bool :=
  !illegalOpc (opcOf w) && opcOf w != opNop && opcOf w != opMpg && opcOf w != opMsp

/-! ## The instruction store (R44, R46) -/

/-- The tile of a cluster is loaded folded. -/
def foldedAt (s : State) (pc : Nat) : Bool := mget s.eng.fold false (tileOfPc pc)

/-- The number of the word of BP `bp` at step `step`. -/
def wkey (s : State) (pc : Nat) (half : Bool) (bp step : Nat) : Nat := wordKey (foldedAt s pc) pc half bp step

/-- The word of BP `bp` at step `step`. -/
def wordAt (s : State) (pc : Nat) (half : Bool) (bp step : Nat) : BitVec 80 :=
  mget s.eng.imem 0 (wkey s pc half bp step)

/-- The fetch of the word finds a double-bit error. -/
def dblErr (s : State) (pc : Nat) (half : Bool) (bp step : Nat) : Bool :=
  mget s.eng.imemErr 0 (wkey s pc half bp step) == 2

/-- The word does something when it issues: it is not a NOP, or its fetch finds a double-bit error. -/
def activeWord (s : State) (pc : Nat) (half : Bool) (bp step : Nat) : Bool :=
  opcOf (wordAt s pc half bp step) != opNop || dblErr s pc half bp step

/-- The BPs of a step whose words do something, in ascending order. -/
def activeBps (s : State) (pc : Nat) (half : Bool) (step : Nat) : List Nat :=
  (List.range 64).filter (fun bp => activeWord s pc half bp step)

/-- The logical steps of a half at which some word does something or the fetch finds an error not yet corrected (from the listed words
and error marks; R46). -/
def activeSteps (s : State) (pc : Nat) (half : Bool) : List Nat :=
  let fold := foldedAt s pc
  let steps := fun (k : Nat) =>
    if k / 131072 = pc ∧ (¬ fold ∨ k % 2 = half.toNat) ∧ (fold ∨ half = false) then
      [if fold then k % 2048 / 2 else k % 2048]
    else []
  s.eng.imem.flatMap (fun e => if opcOf e.2 = opNop then [] else steps e.1)
    ++ s.eng.imemErr.flatMap (fun e => if e.2 = 1 ∨ e.2 = 2 then steps e.1 else [])

/-! ## The net space (R89 to R96) -/

/-- The value of a constant or special slot (R90, R92). -/
def specialSlot (s : State) (pc slot : Nat) : Bool :=
  if slot = 0x7C1 then true
  else if slot = 0x7C2 then s.cyc.first
  else if slot = 0x7C3 then s.cyc.parity
  else if 0x7D0 ≤ slot ∧ slot ≤ 0x7DF then
    let i := tileOfPc pc * 16 + (slot - 0x7D0)
    if flag s (P_BOUND i) then (if flag s (P_DIR i) then flag s (P_FULL i) else flag s (P_VALID i)) else false
  else if 0x7E0 ≤ slot then s.cyc.act.getLsbD (slot - 0x7E0)
  else false

/-- Is a slot number a receive slot? -/
def isRecv (slot : Nat) : Bool := 0x600 ≤ slot && slot < 0x7C0

/-- The number of a receive slot's queue. -/
def recvKey (pc slot : Nat) : Nat := pc * 448 + (slot - 0x600)

/-- The values of a receive slot and its route buffer, oldest first (R95). -/
def recvQ (s : State) (pc slot : Nat) : List Bool := mget s.eng.recv [] (recvKey pc slot)

/-- A receive slot is under SUBSTITUTE (R229). -/
def substituted (s : State) (pc slot : Nat) : Bool := mget s.eng.substitute false (recvKey pc slot)

/-- The value a slot holds now; an empty receive slot reads 0 (R95). -/
def readSlot (s : State) (pc slot : Nat) : Bool :=
  if slot < 0x600 then mget s.eng.slot false (pc * 2048 + slot)
  else if isRecv slot then (if substituted s pc slot then false else (recvQ s pc slot).headD false)
  else specialSlot s pc slot

/-- The progress of a half. -/
def halfOf (s : State) (pc : Nat) (half : Bool) : Half := mget s.eng.half .idle (halfKey pc half)

/-- Set the progress of a half. -/
def setHalf (s : State) (pc : Nat) (half : Bool) (h : Half) : State :=
  { s with eng := { s.eng with half := mset s.eng.half .idle (halfKey pc half) h } }

/-- What an operand of the step in issue reads: the value before the step (R42). -/
def readNet (s : State) (pc : Nat) (half : Bool) (slot : Nat) : Bool :=
  match (halfOf s pc half).old.lookup slot with
  | some v => v
  | none => readSlot s pc slot

/-- A slot is an empty receive slot, so that reading it holds (R43); a slot consumed by a word of this very step was
full. -/
def emptyRecv (s : State) (pc slot : Nat) : Bool :=
  isRecv slot && !substituted s pc slot && (recvQ s pc slot).isEmpty

/-- Write a local slot: visible from the next step (R41), so the value before the step is kept for this one. -/
def writeSlot (s : State) (pc : Nat) (half : Bool) (slot : Nat) (v : Bool) : State :=
  let h := halfOf s pc half
  let h1 := if (h.old.lookup slot).isSome then h else { h with old := (slot, readSlot s pc slot) :: h.old }
  let s1 := setHalf s pc half h1
  { s1 with eng := { s1.eng with slot := mset s1.eng.slot false (pc * 2048 + slot) v } }

/-! ## Programs and step blocks (R118 to R124) -/

/-- The program register of a half (R119). -/
def progOf (s : State) (pc : Nat) (half : Bool) : BitVec 32 := mget s.eng.prog 0 (halfKey pc half)

def progLen (p : BitVec 32) : Nat := bitsOf p.toNat 0 11 + 1
def progBlocks (p : BitVec 32) : Nat := bitsOf p.toNat 11 6 + 1
def progEnabled (p : BitVec 32) : Bool := p.getLsbD 17

/-- Block entry `j` of a half: entries 32 to 63 belong to half b of a folded cluster (R120). -/
def blockKey (pc : Nat) (half : Bool) (j : Nat) : Nat := pc * 64 + (if half then 32 else 0) + j

def blockAt (s : State) (pc : Nat) (half : Bool) (j : Nat) : BitVec 64 := mget s.eng.block 0 (blockKey pc half j)

def blkFirst (b : BitVec 64) : Nat := bitsOf b.toNat 0 11
def blkLast (b : BitVec 64) : Nat := bitsOf b.toNat 11 11
def blkCond (b : BitVec 64) : Bool := b.getLsbD 22
def blkPol (b : BitVec 64) : Bool := b.getLsbD 23
def blkSlot (b : BitVec 64) : Nat := bitsOf b.toNat 24 11

/-- The blocks of a half's program, in order. -/
def blockIdx (s : State) (pc : Nat) (half : Bool) : List Nat := List.range (progBlocks (progOf s pc half))

/-- A block gated by a local slot is decided when the cluster reaches it (R124). -/
def speculative (b : BitVec 64) : Bool := blkCond b && decide (blkSlot b < 0x600)

/-- A gate's outcome for the value of its slot (R120). -/
def gateOf (b : BitVec 64) (v : Bool) : Bool := if blkPol b then !v else v

/-- Is block `j` taken in this cycle? `none`: a speculative block not decided yet. -/
def blockTaken (s : State) (pc : Nat) (half : Bool) (j : Nat) : Option Bool :=
  let b := blockAt s pc half j
  if !blkCond b then some true
  else if blkSlot b < 0x600 then (halfOf s pc half).decided.lookup j
  else some (gateOf b (specialSlot s pc (blkSlot b)))

/-- The block that holds a step. -/
def blockOfStep (s : State) (pc : Nat) (half : Bool) (step : Nat) : Option Nat :=
  (blockIdx s pc half).find? (fun j => blkFirst (blockAt s pc half j) ≤ step && step ≤ blkLast (blockAt s pc half j))

/-- The step lies in a block decided as taken. -/
def stepTaken (s : State) (pc : Nat) (half : Bool) (step : Nat) : Bool :=
  match blockOfStep s pc half step with
  | some j => blockTaken s pc half j == some true
  | none => false

/-- The first step that has not begun to issue. -/
def nextStep (h : Half) : Nat := if h.issuing then h.step + 1 else 0

/-- Every word of the step in issue has issued. -/
def stepComplete (s : State) (pc : Nat) (half : Bool) : Bool :=
  let h := halfOf s pc half
  !h.issuing || (activeBps s pc half h.step).all (fun bp => bp < h.nextBp)

/-- The cluster stands before `step`: the step in issue is complete, the words of every step between do nothing or
lie in skipped blocks, and every speculative block that begins before `step` is decided (R118, R124). -/
def standsBefore (s : State) (pc : Nat) (half : Bool) (step : Nat) : Bool :=
  let h := halfOf s pc half
  stepComplete s pc half
    && (activeSteps s pc half).all (fun x => decide (x < nextStep h) || decide (step ≤ x) || !stepTaken s pc half x)
    && (blockIdx s pc half).all (fun j =>
        decide (step ≤ blkFirst (blockAt s pc half j)) || (blockTaken s pc half j).isSome)

/-- The half takes part in the cycle: enabled in its program register, in an enabled cluster of a tile that is
neither gated nor held in reset (R119, R129). -/
def halfRuns (s : State) (pc : Nat) (half : Bool) : Bool :=
  progEnabled (progOf s pc half) && !mget s.eng.clusterOff false pc
    && !flag s (TILE_GATED (tileOfPc pc)) && !flag s (TILE_IN_RESET (tileOfPc pc))

/-- A cluster may present a step in step clock `c`: in a cycle, and within 64 step clocks of a fault of another cluster (R82). -/
def mayGoOn (s : State) (pc c : Nat) : Bool :=
  if s.cyc.faulted then
    match s.cyc.late with
    | some (f, l) => decide (c ≤ f + 64) && !l.contains pc
    | none => false
  else flag s IN_CYCLE

/-- The half has reached its end (R118). -/
def atEnd (s : State) (pc : Nat) (half : Bool) : Bool :=
  !halfRuns s pc half || standsBefore s pc half (progLen (progOf s pc half))

/-- The step a half stands at: the one whose words are issuing, else the next step that has something to do or whose
block is undecided, else the program's end (R118). -/
def presentedStep (s : State) (pc : Nat) (half : Bool) : Nat :=
  let h := halfOf s pc half
  if !stepComplete s pc half then h.step
  else
    let n := nextStep h
    let xs := (activeSteps s pc half).filter (fun x => decide (n ≤ x) && stepTaken s pc half x)
    let ys := (blockIdx s pc half).filterMap (fun j =>
      let f := blkFirst (blockAt s pc half j)
      if n ≤ f ∧ (blockTaken s pc half j).isNone then some f else none)
    (xs ++ ys).foldl min (progLen (progOf s pc half))

/-! ## The step clocks of a cycle (R39, R125, R128, R148) -/

/-- The steps of taken blocks below `x`: each takes one issue. -/
def takenBefore (s : State) (pc : Nat) (half : Bool) (x : Nat) : Nat :=
  (blockIdx s pc half).foldl (fun n j =>
    let b := blockAt s pc half j
    if blockTaken s pc half j == some true then n + (min x (blkLast b + 1) - blkFirst b) else n) 0

/-- The issue alternates between two logical clusters of the physical cluster (R128). -/
def alternates (s : State) (pc : Nat) : Bool := foldedAt s pc && halfRuns s pc false && halfRuns s pc true

/-- 1 for the half whose steps come second among the steps of equal place, 0 for the other. -/
def turnOf (s : State) (pc : Nat) (half : Bool) : Nat := (half != mget s.cyc.lead false pc).toNat

/-- The steps that the other half of a folded cluster has passed. -/
def otherPassed (s : State) (pc : Nat) (half : Bool) : Nat := takenBefore s pc (!half) (presentedStep s pc (!half))

/-- The issue goes to this half at `step`: the other one has passed its steps of the same turn, or is at its end (R128). -/
def inTurn (s : State) (pc : Nat) (half : Bool) (step : Nat) : Bool :=
  !alternates s pc || atEnd s pc (!half) || decide (takenBefore s pc half step + turnOf s pc half ≤ otherPassed s pc half)

/-- The step clock of the cycle in which a half presents `step`: the steps that its physical cluster has issued before it, and the
step clocks lost to holds and cancels. -/
def issueClock (s : State) (pc : Nat) (half : Bool) (step : Nat) : Nat :=
  let i := takenBefore s pc half step
  i + (if alternates s pc then min (i + turnOf s pc half) (otherPassed s pc half) else 0) + mget s.cyc.lost 0 pc

/-- A cluster of the die has reached step clock `c` without an issue: the die watchdog counts (R144). -/
def noteWait (s : State) (d c : Nat) : State :=
  let now := mget s.cyc.dieNow 0 d
  if now < c then addF { s with cyc := { s.cyc with dieNow := mset s.cyc.dieNow 0 d c } } (NOPROGRESS_COUNT d) (c - now) else s

/-- A cluster of the die issues in step clock `c`: the count returns to 0, or to the step clocks since then (R144). -/
def noteIssue (s : State) (d c : Nat) : State :=
  let now := mget s.cyc.dieNow 0 d
  if now ≤ c then setF { s with cyc := { s.cyc with dieNow := mset s.cyc.dieNow 0 d (c + 1) } } (NOPROGRESS_COUNT d) 0
  else setF s (NOPROGRESS_COUNT d) (min (getF s (NOPROGRESS_COUNT d)) (now - (c + 1)))

/-- A physical cluster loses `n` step clocks. -/
def loseClocks (s : State) (pc n : Nat) : State := { s with cyc := { s.cyc with lost := mset s.cyc.lost 0 pc (mget s.cyc.lost 0 pc + n) } }

/-! ## Routes (R99 to R102, R114, R543) -/

def rtType (e : BitVec 32) : Nat := bitsOf e.toNat 30 2
def rtDev (e : BitVec 32) : Nat := bitsOf e.toNat 20 9
def rtDie (e : BitVec 32) : Nat := bitsOf e.toNat 18 2
def rtTile (e : BitVec 32) : Nat := bitsOf e.toNat 13 5
def rtCluster (e : BitVec 32) : Nat := bitsOf e.toNat 9 4
def rtSlot (e : BitVec 32) : Nat := bitsOf e.toNat 0 9
def rtCount (e : BitVec 32) : Nat := bitsOf e.toNat 12 3
def rtFirst (e : BitVec 32) : Nat := bitsOf e.toNat 0 12

/-- Route table entry `e` of tile `t`. -/
def routeAt (s : State) (t e : Nat) : BitVec 32 := mget s.eng.route 0 (t * 4096 + e)

/-- The half of a cluster that owns receive offset `n` (R189). -/
def halfOfOffset (s : State) (pc n : Nat) : Bool := foldedAt s pc && decide (224 ≤ n)

/-- A tile is gated or held in reset: values sent to it are discarded (R117). -/
def tileIdle (s : State) (t : Nat) : Bool := flag s (TILE_GATED t) || flag s (TILE_IN_RESET t)

/-- A cluster half is unbound as a destination: disabled in the grade, or ENABLED 0, in a tile neither gated nor held in reset
(R543). -/
def unboundHalf (s : State) (pc : Nat) (half : Bool) : Bool :=
  !tileIdle s (tileOfPc pc) && (mget s.eng.clusterOff false pc || !progEnabled (progOf s pc half))

/-- A DIRECT entry of tile `t` is a good destination (R114, R543). -/
def directOk (s : State) (t e : Nat) : Bool :=
  let r := routeAt s t e
  rtType r == 1 && decide (rtSlot r ≤ 447) &&
    (mget s.eng.detached false (t * 4096 + e) || rtDev r != getF s DEV_ID ||
      let pc := rtDie r * 512 + rtTile r * 16 + rtCluster r
      !unboundHalf s pc (halfOfOffset s pc (rtSlot r)))

/-- The DIRECT entries that a send on route `id` of tile `t` serves; `none`: ROUTE_UNBOUND. -/
def destsOf (s : State) (t id : Nat) : Option (List Nat) :=
  if id > 4095 then none
  else
    let r := routeAt s t id
    if rtType r = 1 then (if directOk s t id then some [id] else none)
    else if rtType r = 2 then
      let l := (List.range (rtCount r + 1)).map (fun i => rtFirst r + i)
      if 1 ≤ rtCount r ∧ rtFirst r + rtCount r ≤ 4095 ∧ l.all (fun e => directOk s t e) then some l else none
    else none

/-- The words of a step that send, in ascending BP order: their place in the list is their rank (R77). -/
def senders (s : State) (pc : Nat) (half : Bool) (step : Nat) : List Nat :=
  (List.range 64).filter (fun bp =>
    let w := wordAt s pc half bp step
    sndOf w && hasResult w && !dblErr s pc half bp step)

/-- The route ID of rank `k` at a step (R99). -/
def routeId (s : State) (pc : Nat) (half : Bool) (step k : Nat) : Nat :=
  (mget s.eng.sendMap 0 (halfKey pc half * 2048 + step)).toNat + k

/-- The credits of a DIRECT entry (R97). -/
def creditOf (s : State) (t e : Nat) : Nat := mget s.eng.credit 5 (t * 4096 + e)

/-- A send on route `id` would wait for a credit; DETACHED members take none (R97, R229). -/
def waitsCredit (s : State) (t id : Nat) : Bool :=
  match destsOf s t id with
  | none => false
  | some l => l.any (fun e => !mget s.eng.detached false (t * 4096 + e) && creditOf s t e == 0)

/-! ## Port ownership (R63, R67, R71) -/

/-- The model memory port is bound and owned by the half. -/
def mmpOwned (s : State) (pc : Nat) (half : Bool) (p : Nat) : Bool :=
  let t := tileOfPc pc
  (getF s (MMP_BIND t p) == 1 || getF s (MMP_BIND t p) == 2)
    && getF s (MMP_OWNER t p) == pc % 16 && flag s (MMP_OWNER_HALF t p) == half

/-- The message port is in range, bound and owned by the half. -/
def msgOwned (s : State) (pc : Nat) (half : Bool) (p : Nat) : Bool :=
  let i := tileOfPc pc * 16 + p
  decide (p < 16) && flag s (P_BOUND i) && getF s (P_OWNER i) == pc % 16 && flag s (P_OWNER_HALF i) == half

/-- The target bit of a TPO or TPI is in range, bound and owned by the half. -/
def targetOwned (tb : Map Nat) (pc : Nat) (half : Bool) (p b : Nat) : Bool :=
  decide (p < 16) && mget tb 0 (p * 256 + b) == 1 + halfKey pc half

/-- The port `p` of tile `t`. -/
def mmpAt (s : State) (t p : Nat) : MmpPort := mget s.eng.mmp .empty (t * 32 + p)

def setMmp (s : State) (t p : Nat) (m : MmpPort) : State :=
  { s with eng := { s.eng with mmp := mset s.eng.mmp .empty (t * 32 + p) m } }

/-- The message port `i` = t*16 + port. -/
def msgAt (s : State) (i : Nat) : MsgPort := mget s.eng.msg .empty i

def setMsg (s : State) (i : Nat) (m : MsgPort) : State :=
  { s with eng := { s.eng with msg := mset s.eng.msg .empty i m } }

/-- A valid bit index of an MPA (R64, R171). -/
def mpaBitOk (s : State) (t p : Nat) (data : Bool) (b : Nat) : Bool :=
  if data then
    let dw := getF s (MMP_DWIDTH_M1 t p) + 1
    decide (b < dw) || (flag s (MMP_WMASK t p) && decide (128 ≤ b) && decide (b < 128 + dw))
  else decide (b < getF s (MMP_AWIDTH_M1 t p) + 1)

/-- An MPR that would fault, so that it does not wait for its entry: its port, bit index, or an entry used by a write
(R63, R66). -/
def mprFaults (s : State) (pc : Nat) (half : Bool) (w : BitVec 80) : Bool :=
  let t := tileOfPc pc
  !mmpOwned s pc half (portOf w) || decide (getF s (MMP_DWIDTH_M1 t (portOf w)) + 1 ≤ bitIdxOf w)
    || (mmpAt s t (portOf w)).usedWrite.contains (seqOf w)

/-- An MPR waits for its result-buffer entry (R66). -/
def mprWaits (s : State) (pc : Nat) (half : Bool) (w : BitVec 80) : Bool :=
  opcOf w == opMpr && !mprFaults s pc half w
    && ((mmpAt s (tileOfPc pc) (portOf w)).results.lookup (seqOf w)).isNone

/-! ## Holds of a step (R43) -/

/-- Why a step holds. -/
inductive Hold where
  | fetch          -- a single-bit correction, one step clock
  | recv (bp slot : Nat)
  | mmp (bp port seq : Nat)
  | credit (bp id : Nat)
deriving DecidableEq, Repr

/-- The BPs of a step whose fetch finds a single-bit error not yet corrected. -/
def singleErrBps (s : State) (pc : Nat) (half : Bool) (step : Nat) : List Nat :=
  (List.range 64).filter (fun bp => mget s.eng.imemErr 0 (wkey s pc half bp step) == 1)

/-- The holds of one word: empty receive operands, an MPR result, a send without credit. -/
def wordHolds (s : State) (pc : Nat) (half : Bool) (step bp : Nat) : List Hold :=
  let w := wordAt s pc half bp step
  if dblErr s pc half bp step then []
  else
    ((readsOf w).filter (fun x => emptyRecv s pc x)).map (fun x => .recv bp x)
      ++ (if mprWaits s pc half w then [.mmp bp (portOf w) (seqOf w)] else [])
      ++ (match (senders s pc half step).idxOf? bp with
          | some k => if k < 16 ∧ waitsCredit s (tileOfPc pc) (routeId s pc half step k) then
              [.credit bp (routeId s pc half step k)] else []
          | none => [])

/-- Every hold of a step, lowest BP first. -/
def stepHolds (s : State) (pc : Nat) (half : Bool) (step : Nat) : List Hold :=
  if (singleErrBps s pc half step).isEmpty then (List.range 64).flatMap (fun bp => wordHolds s pc half step bp)
  else [.fetch]

end Sys2Proof.Machine
end

