-- ==== Sys2Proof/Machine/Line.lean ====
section
/-!
DEFINITION. The line of a lane as functions on bits: the flit and its CRC (R287), the scrambler (R284), the PAM4
mapping (R285), the transition stuffer (R286) and the PRBS patterns (R305).
-/
namespace Sys2Proof.Machine
open Sys2Proof

/-! ## The flit (R287) -/

/-- The bits of a number, bit 0 first. -/
def bitList (v : Nat) : Nat → List Bool
  | 0 => []
  | n + 1 => bitOf v 0 :: bitList (v / 2) n

/-- One bit through the CRC register of 0x8BB7. -/
def crc16Step (r : Nat) (b : Bool) : Nat :=
  let top := bitOf r 15
  let sh := (r * 2) % 2 ^ 16
  if top != b then sh ^^^ 0x8BB7 else sh

/-- The CRC of bits in transmission order, from 0xFFFF. -/
def crc16 (bits : List Bool) : Nat := bits.foldl crc16Step 0xFFFF

/-- Bits [239:0] of a flit. -/
def flitBody (type seq : Byte) (payload : BitVec 224) : Nat :=
  type.toNat + seq.toNat * 2 ^ 8 + payload.toNat * 2 ^ 16

/-- The flit of 256 bits, its CRC in bits [255:240]. -/
def flitWord (type seq : Byte) (payload : BitVec 224) : BitVec 256 :=
  let b := flitBody type seq payload
  BitVec.ofNat 256 (b + crc16 (bitList b 240) * 2 ^ 240)

/-- A received flit passes its CRC. -/
def flitGood (f : BitVec 256) : Bool :=
  crc16 (bitList f.toNat 240) == bitsOf f.toNat 240 16

/-! ## Scrambler (R284) -/

/-- Scramble bits: each sent bit is the input bit with the sent bits 39 and 58 places back; `past` holds the sent bits,
latest first. -/
def scramble (past : List Bool) : List Bool → List Bool
  | [] => []
  | d :: r =>
    let b := d ^^ past.getD 38 false ^^ past.getD 57 false
    b :: scramble (b :: past.take 57) r

/-- Descramble: each output bit is the received bit with the received bits 39 and 58 places back. -/
def descramble (past : List Bool) : List Bool → List Bool
  | [] => []
  | b :: r => (b ^^ past.getD 38 false ^^ past.getD 57 false) :: descramble (b :: past.take 57) r

/-! ## PAM4 and stuffing (R285, R286) -/

/-- The line level of a pair of bits, the first the more significant. -/
def pam4 (hi lo : Bool) : Nat :=
  match hi, lo with
  | false, false => 0
  | false, true => 1
  | true, true => 2
  | true, false => 3

/-- The pair of bits of a level. -/
def unPam4 (l : Nat) : Bool × Bool :=
  match l with
  | 0 => (false, false)
  | 1 => (false, true)
  | 2 => (true, true)
  | _ => (true, false)

/-- Insert stuffing pairs: after 32 equal symbols at level L comes the pair (3 - L, L), whose second symbol starts a new
count at 1. -/
def stuff (level run : Nat) : List Nat → List Nat
  | [] => []
  | x :: r =>
    if run = 32 then
      (3 - level) :: level :: x :: (if x = level then stuff x 2 r else stuff x 1 r)
    else x :: (if x = level ∧ 0 < run then stuff x (run + 1) r else stuff x 1 r)

/-- Level and length of the run at the end of symbols that have been stuffed, from those before them. -/
def runAfter (level run : Nat) : List Nat → Nat × Nat
  | [] => (level, run)
  | x :: r => runAfter x (if run = 32 then (if x = level then 2 else 1) else if x = level ∧ 0 < run then run + 1 else 1) r

/-- What the receiver makes of line symbols: the symbols without stuffing pairs, how many pairs did not begin with 3 - L, and the run at
the end. -/
def unstuff (level run : Nat) : List Nat → List Nat × Nat × Nat × Nat
  | [] => ([], 0, level, run)
  | x :: r =>
    if run = 32 then
      let t := unstuff level 33 r
      (t.1, t.2.1 + (if x = 3 - level then 0 else 1), t.2.2)
    else if run = 33 then unstuff x 1 r
    else
      let t := unstuff x (if x = level ∧ 0 < run then run + 1 else 1) r
      (x :: t.1, t.2)

/-- The levels of bits, two at a time, and the bits of levels. -/
def levelsOf : List Bool → List Nat
  | a :: b :: r => pam4 a b :: levelsOf r
  | _ => []
def bitsOfLevels (l : List Nat) : List Bool := l.flatMap (fun x => [(unPam4 x).1, (unPam4 x).2])

/-! ## Forward error correction (R291): RS(544,514) over GF(2^10) -/

/-- Sum and product in GF(2^10), with the field polynomial x^10 + x^3 + 1; PRESUMED from IEEE 802.3 Clause 91. -/
def gfTwice (x : Nat) : Nat := if x < 512 then 2 * x else (2 * x) ^^^ 0x409
def gfTimes (a b : Nat) : Nat := (List.range 10).foldl (fun r i => if bitOf b (9 - i) then gfTwice r ^^^ a else gfTwice r) 0

/-- alpha^j, alpha = x. -/
def gfAlpha : Nat → Nat
  | 0 => 1
  | j + 1 => gfTwice (gfAlpha j)

/-- Sums of coefficients, highest first. -/
def addPoly (p q : List Nat) : List Nat := List.zipWith (fun a b => a ^^^ b) p q

/-- The generator polynomial, the product of x + alpha^j for j below `n`, without its leading 1. -/
def rsGenerator : Nat → List Nat
  | 0 => []
  | j + 1 =>
    let g := rsGenerator j
    addPoly (g ++ [0]) ((1 :: g).map (gfTimes (gfAlpha j)))

/-- One message symbol through the encoder's registers. -/
def rsStep (g reg : List Nat) (m : Nat) : List Nat :=
  let f := m ^^^ reg.headD 0
  addPoly (reg.drop 1 ++ [0]) (g.map (gfTimes f))

/-- The 30 parity symbols of message symbols, in the order of transmission. -/
def rsParity (m : List Nat) : List Nat := m.foldl (rsStep (rsGenerator 30)) (List.replicate 30 0)

/-- The symbols form a codeword: every syndrome is 0. -/
def rsGood (c : List Nat) : Bool := (List.range 30).all (fun j => c.foldl (fun y x => gfTimes y (gfAlpha j) ^^^ x) 0 == 0)

/-- Symbols of ten bits, the first bit transmitted being bit 0. -/
def symbolsOf : Nat → List Bool → List Nat
  | 0, _ => []
  | n + 1, l => (l.take 10).reverse.foldl (fun v b => 2 * v + b.toNat) 0 :: symbolsOf n (l.drop 10)

/-- The bits of a codeword: its header with the count, 20 flits and the parity. -/
def codeword (count : Nat) (flits : List Bool) : List Bool :=
  let m := bitList (count % 4096) 20 ++ flits
  m ++ (rsParity (symbolsOf 514 m)).flatMap (fun x => bitList x 10)

/-! ## The path of a flit to the line and back (R283) -/

/-- Bits leave through the PAM4 mapping and the stuffer. -/
def LineTx.emit (x : LineTx) (bits : List Bool) : List Nat × LineTx :=
  let l := levelsOf bits
  let e := runAfter x.level x.run l
  (stuff x.level x.run l, { x with level := e.1, run := e.2 })

/-- A flit leaves through the scrambler, with `start` its initial state, and, with FEC on, the encoder: the twentieth flit completes a
codeword. The symbols sent, and the transmitter after them. -/
def LineTx.flit (x : LineTx) (start : List Bool) (fec : Bool) (word : BitVec 256) : List Nat × LineTx :=
  let bits := scramble (x.past ++ start) (bitList word.toNat 256)
  let y := { x with past := (bits.reverse ++ x.past).take 58 }
  if fec then
    if (x.bits ++ bits).length = 5120 then
      { y with bits := [], count := x.count + 1 }.emit (codeword x.count.toNat (x.bits ++ bits))
    else ([], { y with bits := x.bits ++ bits })
  else y.emit bits

/-- A lane begins to send and to receive with FEC on or off: the first codeword begins here. -/
def LineTx.restart (x : LineTx) : LineTx := { x with bits := [], count := 0 }

/-- The bits of a flit from the line symbols of a lane without FEC, how many stuffing pairs were bad, and the receiver after them. -/
def LineRx.block (x : LineRx) (symbols : List Nat) : List Bool × Nat × LineRx :=
  let u := unstuff x.level x.run symbols
  let bits := bitsOfLevels u.1
  (descramble x.past bits, u.2.1, { past := (bits.reverse ++ x.past).take 58, level := u.2.2.1, run := u.2.2.2 })

/-- The bits of the twenty flits of a codeword from its line symbols, how many stuffing pairs were bad, and the receiver after them:
`errs` is what the decoder corrects, at most 15 of the 544 symbols, and no more than one choice of it gives a codeword; `none` where it
does not. FEC_CODEWORD's operands say which of these has happened. -/
def LineRx.codeword (x : LineRx) (symbols errs : List Nat) : Option (List Bool × Nat × LineRx) :=
  let u := unstuff x.level x.run symbols
  let c := addPoly (symbolsOf 544 (bitsOfLevels u.1)) errs
  if (errs.filter (· != 0)).length ≤ 15 ∧ rsGood c then
    let bits := ((c.take 514).flatMap (fun y => bitList y 10)).drop 20
    some (descramble x.past bits, u.2.1, { past := (bits.reverse ++ x.past).take 58, level := u.2.2.1, run := u.2.2.2 })
  else none

/-- The receiver after a flit that has arrived well on a lane without FEC: what came is what the scrambler makes of its bits. -/
def LineRx.flit (x : LineRx) (word : BitVec 256) : LineRx :=
  let bits := scramble x.past (bitList word.toNat 256)
  let e := runAfter x.level x.run (levelsOf bits)
  { past := (bits.reverse ++ x.past).take 58, level := e.1, run := e.2 }

/-- The flit of 256 bits. -/
def wordOfBits (l : List Bool) : BitVec 256 := BitVec.ofNat 256 (l.reverse.foldl (fun v b => 2 * v + b.toNat) 0)

/-! ## PRBS patterns (R305) -/

/-- The two taps of a pattern code; `none`: off. -/
def prbsTaps (code : Nat) : Option (Nat × Nat) :=
  match code with
  | 1 => some (7, 6)
  | 2 => some (15, 14)
  | 3 => some (23, 18)
  | 4 => some (31, 28)
  | _ => none

/-- The next bit of a pattern from the bits before it, latest first. -/
def prbsNext (taps : Nat × Nat) (past : List Bool) : Bool :=
  past.getD (taps.1 - 1) false ^^ past.getD (taps.2 - 1) false

/-- `n` bits of a pattern after those of `past`, latest first, in front of these. -/
def prbsRun (taps : Nat × Nat) (past : List Bool) : Nat → List Bool
  | 0 => past
  | n + 1 => prbsRun taps (prbsNext taps past :: past) n

end Sys2Proof.Machine
end

