-- ==== Sys2Proof/Machine/Events.lean ====
section
/-!
DEFINITION. Owners and routes of event sources, the EVENT_N pin and the clearing of pending bits (R490 to R494).
-/
namespace Sys2Proof.Machine
open Sys2Proof Reg

/-- The partition of the 16 queues of a group; 0 where they differ (R490). -/
def groupOwner (s : State) (g : Nat) : Nat :=
  let p := getF s (Q_PARTITION (g * 16))
  if (List.range 16).all (fun i => getF s (Q_PARTITION (g * 16 + i)) == p) then p else 0

/-- The owner partition of a source (R490). -/
def evOwner (s : State) (e : Nat) : Nat :=
  if e < 768 then 0
  else if e < 1280 then getF s (TILE_PARTITION ((e - 768) / 4))
  else if e < 3328 then groupOwner s (e - 1280)
  else if e = evAcqTrigger ∨ e = evAcqDone ∨ e = evMaskViolation then getF s ACQ_OWNER
  else if e = evTrcOverflow then getF s TRC_OWNER
  else if e = evLoadDone then getF s LOAD_PARTITION
  else if evCrDone 1 ≤ e ∧ e ≤ evCrDone 16 then e - evCrDone 1
  else 0

/-- The sources whose owner differs between `old` and `s` lose EN where their route names a VF's vector (R492). -/
def fixRoutes (old s : State) : List Nat → State
  | [] => s
  | e :: r =>
    fixRoutes old (if evOwner old e ≠ evOwner s e ∧ 1024 ≤ getF s (EVR_VECTOR e) then setF s (EVR_EN e) 0 else s) r

/-- The sources of a tile. -/
def tileSources (t : Nat) : List Nat := (List.range 4).map (tileEv t)

/-- Some source whose route has PIN set is pending: EVENT_N is driven low (R493). -/
def eventPin (s : State) : Bool := (List.range 3384).any (fun e => flag s (EVR_PIN e) && pendingEv s e)

/-- A route names a VF's vector that the source's owner does not have (R492). -/
def foreignVector (s : State) (e v : Nat) : Bool := decide (1024 ≤ v) && evOwner s e != (v - 1024) / 64

/-- A write to EV_ROUTE of a source: refused as a whole when it names a foreign VF vector. -/
def writeRoute (s : State) (e v : Nat) : State :=
  if foreignVector s e (v % 2048) then setFlag s ROUTE_REFUSED true
  else setFs s [(EVR_VECTOR e, v % 2048), (EVR_EN e, bitsOf v 11 1), (EVR_PIN e, bitsOf v 12 1)]

/-- The partition of a view: function 0 and ring 0 see every bit (R494). -/
def seesSource (s : State) (ring e : Nat) : Bool := ring == 0 || evOwner s e == ring - 1

def seesQueue (s : State) (ring q : Nat) : Bool := ring == 0 || getF s (Q_PARTITION q) == ring - 1

/-- Write word `w` of EV_PEND, or its mirror in a ring's view: ones clear the bits that the view shows; the bits of queue groups
are read-only (R491, R494, R499). -/
def clearPending (s : State) (ring w v : Nat) : State :=
  ((List.range 32).filter (fun i => bitOf v i)).foldl (fun a i =>
    let e := w * 32 + i
    if (1280 ≤ e ∧ e < 3328) ∨ 4096 ≤ e ∨ ¬ seesSource s ring e then a else setF a (evPend e) 0) s

/-- The same for word `w` of the queue pending bits. -/
def clearQueuePending (s : State) (ring w v : Nat) : State :=
  ((List.range 32).filter (fun i => bitOf v i)).foldl (fun a i =>
    let q := w * 32 + i
    if 32768 ≤ q ∨ ¬ seesQueue s ring q then a else setF a (queuePend q) 0) s

/-- The value of word `w` of EV_PEND as a view shows it. -/
def pendingWord (s : State) (ring w : Nat) : Nat :=
  (List.range 32).foldl (fun n i => n + (pendingEv s (w * 32 + i) && seesSource s ring (w * 32 + i)).toNat * 2 ^ i) 0

def queuePendingWord (s : State) (ring w : Nat) : Nat :=
  (List.range 32).foldl (fun n i => n + (flag s (queuePend (w * 32 + i)) && seesQueue s ring (w * 32 + i)).toNat * 2 ^ i) 0

/-! ## Rows of the table -/

/-- EV_PEND_CLEAR: a word with ones is written to EV_PEND (`queue`: to the queue pending bits), by the PF or through the view of the
command ring of function `fn`. -/
def execEvPendClear (fn : BitVec 5) (queue : Bool) (w : BitVec 10) (v : BitVec 32) (s : State) : Host.Outcome State Fault Refusal :=
  byHost s (fun a =>
    if 17 ≤ fn.toNat then a
    else if queue then clearQueuePending a fn.toNat w.toNat v.toNat
    else clearPending a fn.toNat w.toNat v.toNat)

/-- EV_ROUTE: the PF writes the route of a source; bits 31 to 13 are reserved (R499). -/
def execEvRoute (src : BitVec 12) (v : BitVec 32) (s : State) : Host.Outcome State Fault Refusal :=
  byHost s (fun a => writeRoute (countReserved a 0x1FFF v.toNat) src.toNat v.toNat)

end Sys2Proof.Machine
end

