-- ==== Sys2Proof/Machine/Replies.lean ====
section
/-!
DEFINITION. Replies of the command interface (R451, R452, R457, R461, R462): where they go, the calls that are
outstanding, and the PEEKs that wait for a commit phase.
-/
namespace Sys2Proof.Machine
open Sys2Proof Reg

/-! ## Status codes (R458) -/

def rsOk : Nat := 0x0000
def rsPending : Nat := 0x0001
def rsBadOpcode : Nat := 0x0010
def rsBadParam : Nat := 0x0011
def rsNoRight : Nat := 0x0012
def rsBusy : Nat := 0x0020
def rsTimeout : Nat := 0x0030
def rsAuthFail : Nat := 0x0040
def rsDataAuth : Nat := 0x0041
def rsRightsChanged : Nat := 0x0042
def rsDataUncorr : Nat := 0x0043
def rsLevelLow : Nat := 0x0050
def rsQuarantined : Nat := 0x0060

/-- The 16 header bytes of a reply, then its parameters (R457). -/
def replyBytes (opcode tag status : Nat) (params : List Byte) : List Byte :=
  leBytes 2 opcode ++ [0, 1] ++ leBytes 2 tag ++ leBytes 2 params.length ++ leBytes 2 status ++ [0, 0, 0, 0, 0, 0]
    ++ params

/-! ## Completion rings (R451, R452) -/

/-- Slots of ring `r`'s submission and completion rings. -/
def sqSlots (s : State) (r : Nat) : Nat := 2 ^ (min (getF s (CR_SQ_LOG2 r)) 8 + 4)
def cqSlots (s : State) (r : Nat) : Nat := 2 ^ (min (getF s (CR_CQ_LOG2 r)) 8 + 4)

/-- Replies held for a full CQ. -/
def heldOf (s : State) (r : Nat) : List (List Byte × Bool) := mget s.ctl.heldReplies [] r

/-- The CQ has room for a reply. -/
def cqRoom (s : State) (r : Nat) : Bool :=
  decide ((getF s (CR_CQ_PROD r) + 2 ^ 32 - getF s (CR_CQ_CONS r)) % 2 ^ 32 < cqSlots s r)

/-- The writeback of a ring's indices (R452). -/
def ringWriteback (s : State) (r : Nat) : State :=
  let v := getF s (CR_SQ_FETCHED r) + 2 ^ 32 * getF s (CR_CQ_PROD r)
  hostWrite s r (getF s (CR_WB_ADDR r) * 8) 8 v

/-- Write one reply into the CQ and advance CQ_PROD, then the writeback, then the completion event. -/
def writeReply (s : State) (r : Nat) (bytes : List Byte) (event : Bool) : State :=
  let k := getF s (CR_CQ_PROD r)
  let a := getF s (CR_CQ_BASE r) * 4096 + k % cqSlots s r * 128
  let s1 := setF (hostWriteList s r a bytes) (CR_CQ_PROD r) ((k + 1) % 2 ^ 32)
  let s2 := ringWriteback s1 r
  if event then raiseEv s2 (evCrDone r) else s2

/-- Put a ring's list of held replies; CR_STATUS.HELD follows it. -/
def setHeld (s : State) (r : Nat) (l : List (List Byte × Bool)) : State :=
  setFlag { s with ctl := { s.ctl with heldReplies := mset s.ctl.heldReplies [] r l } } (CR_HELD r) (!l.isEmpty)

/-- A reply to ring `r`: into the CQ while it has room and none is held, else held (R452). -/
def ringReply (s : State) (r : Nat) (bytes : List Byte) (event : Bool) : State :=
  if ¬ flag s (CR_ENABLE r) then s
  else if (heldOf s r).isEmpty ∧ cqRoom s r then writeReply s r bytes event
  else setHeld s r (heldOf s r ++ [(bytes, event)])

/-- Held replies move into the CQ while it has room; `n` bounds them. -/
def drainHeld (s : State) (r : Nat) : Nat → State
  | 0 => s
  | n + 1 =>
    match heldOf s r with
    | [] => s
    | (b, e) :: rest => if cqRoom s r then drainHeld (writeReply (setHeld s r rest) r b e) r n else s

/-! ## Ethernet replies (R462) -/

/-- The leftmost 16 bytes of HMAC-SHA-384 under the management key. -/
def ethMac (s : State) (message : List Byte) : List Byte :=
  (Crypto.hmac s.nv.mgmtKey message).take 16

/-- A reply datagram: the reply, the COUNTER of its command and the MAC. It becomes the stored reply of that command. -/
def ethReply (s : State) (tag : Nat) (bytes : List Byte) : State :=
  let e := s.ctl.eth
  let c := mget e.counters 0 tag
  let d := bytes ++ leBytes 8 c ++ ethMac s (leBytes 8 c ++ bytes)
  { s with ctl := { s.ctl with eth :=
    { e with out := e.out ++ [d], stored := e.stored.map (fun x => if x.1 = c then (c, x.2.1, d) else x) } } }

/-! ## Replies by transport -/

/-- Send a reply where its command came from (R457, R461, R462). A final reply raises the ring's completion event
when the command or the ring asks for it; BAD_OPCODE, BAD_PARAM and NO_RIGHT are counted in REJECTS (R453). There are 17 rings. -/
def sendReply (s : State) (via : Via) (opcode tag status : Nat) (params : List Byte) (event : Bool) : State :=
  let bytes := replyBytes opcode tag status params
  match via with
  | .ring r =>
    if 16 < r then s else
    let s1 := if status = rsBadOpcode ∨ status = rsBadParam ∨ status = rsNoRight then addF s (CR_REJECTS r) 1 else s
    ringReply s1 r bytes (status != rsPending && (event || flag s (CR_EV_ALL r)))
  | .smbus => { s with ctl := { s.ctl with smbusOut := s.ctl.smbusOut ++ [bytes] } }
  | .ethernet => ethReply s tag bytes
  | .gone => s

/-- The outstanding call of a number. -/
def callOf (s : State) (id : Nat) : Option Call := s.ctl.calls.find? (fun c => c.id == id)

/-- Send the final reply of an outstanding call. -/
def finalReply (s : State) (id status : Nat) (params : List Byte) : State :=
  match callOf s id with
  | none => s
  | some c =>
    sendReply { s with ctl := { s.ctl with calls := s.ctl.calls.erase c } } c.via c.opcode c.tag status params c.event

/-- Send one final reply to each of a list of calls. -/
def finalReplies (s : State) (status : Nat) (params : List Byte) : List Nat → State
  | [] => s
  | c :: r => finalReplies (finalReply s c status params) status params r

/-! ## Room of a queue (R342, R343) -/

def queueAt (s : State) (q : Nat) : Queue := mget s.qs.q .empty q

/-- Records of the spill ring: none for SPILL_LOG2 below 4, at most 2^24 (R343, R366). -/
def spillSize (s : State) (q : Nat) : Nat :=
  let l := getF s (Q_SPILL_LOG2 q)
  if l < 4 then 0 else 2 ^ min l 24

/-- CAP: 32 records of the burst window and those of the spill ring. -/
def capOfQueue (s : State) (q : Nat) : Nat := 32 + spillSize s q

/-- DEPTH: records in the device queue. -/
def depthOf (s : State) (q : Nat) : Nat := (queueAt s q).window.length + (queueAt s q).spill.length

/-- A queue has room for a record. -/
def roomIn (s : State) (q : Nat) : Bool := decide (depthOf s q < capOfQueue s q)

/-! ## The clock schedule (R122, R123) -/

/-- The number of a state bit: half b of a folded cluster owns bits 0x8000 and up (R189). -/
def stateKey (s : State) (pc : Nat) (half : Bool) (saddr : Nat) : Nat :=
  pc * 65536 + saddr + (if foldedAt s pc && half then 0x8000 else 0)

/-- A number with the bits of a list set. -/
def bitSet (l : List Nat) : Nat := l.foldl (fun n i => n ||| 2 ^ i) 0

/-- The state bit that a STATE entry names in physical form: cluster of the device and state bit (R122, R182); `none`: the cluster is
fused off. -/
def schedBit (s : State) (v : Nat) : Option Bool :=
  let pc := bitsOf v 64 11
  if mget s.eng.clusterOff false pc then none else some (mget s.eng.cur false (pc * 65536 + bitsOf v 75 16))

/-- ACT_k for cycle `n`. A source that does not exist leaves the bit open. -/
def actBit (s : State) (n k : Nat) : Bool :=
  let v := (mget s.cyc.sched 0 k).toNat
  match bitsOf v 0 2 with
  | 1 => (n + bitsOf v 18 16) % (bitsOf v 2 16 + 1) == 0
  | 2 => bitOf v (64 + n % (bitsOf v 34 6 + 1))
  | 3 => (match schedBit s v with
      | some b => b != bitOf v 91
      | none => (Config.freeValue 32 s.free).getLsbD k)
  | _ => false

/-- ACT for cycle `n`. -/
def actOf (s : State) (n : Nat) : BitVec 32 := BitVec.ofNat 32 (bitSet ((List.range 32).filter (actBit s n)))

/-! ## Peeks of net spaces (R94, R467, R468) -/

/-- A constant or special slot between two cycles that no commit has prepared: its value at the start of the next one (R90, R92, R135). -/
def startSpecial (s : State) (pc slot : Nat) : Bool :=
  let n := getF s CYCLE_NUM
  if slot = 0x7C2 then n == 0
  else if slot = 0x7C3 then n % 2 == 1
  else if 0x7D0 ≤ slot ∧ slot ≤ 0x7DF then
    let i := tileOfPc pc * 16 + (slot - 0x7D0)
    flag s (P_BOUND i) && (if flag s (P_DIR i) then !roomIn s (getF s (P_QBASE i)) else (msgAt s i).cur.isSome)
  else if 0x7E0 ≤ slot then
    actBit s n (slot - 0x7E0)
  else specialSlot s pc slot

/-- The bits a PEEK of slots reads: values, or full bits of receive slots. `cut`: a cycle was cut off, and its values stand. -/
def peekBit (s : State) (cut : Bool) (pc : Nat) (full : Bool) (slot : Nat) : Bool :=
  if full then !(recvQ s pc slot).isEmpty
  else if slot < 0x7C0 ∨ cut ∨ s.cyc.ready then readSlot s pc slot
  else startSpecial s pc slot

/-- The bits of a PEEK as a number. -/
def peekBits (s : State) (cut : Bool) (pc : Nat) (full : Bool) : List Nat → Nat
  | [] => 0
  | x :: r => (peekBit s cut pc full x).toNat + 2 * peekBits s cut pc full r

/-- The parameters of a PEEK reply: CYCLE with bit 63, then VALUE. -/
def peekReply (cycle : Nat) (abandoned : Bool) (value : Nat) : List Byte :=
  leBytes 8 (cycle + (if abandoned then 2 ^ 63 else 0)) ++ leBytes 32 value

/-- Answer PEEKs. -/
def answerPeekList (s : State) (abandoned : Bool) : List Peek → State
  | [] => s
  | p :: r =>
    answerPeekList (finalReply s p.call rsOk
      (peekReply (getF s CYCLE_NUM) abandoned (peekBits s abandoned p.pc p.full p.slots))) abandoned r

/-- Answer every PEEK that waits: after a commit phase, or, with bit 63 set, at a stop without commit (R468). -/
def answerPeeks (s : State) (abandoned : Bool) : State :=
  answerPeekList { s with ctl := { s.ctl with peeks := [] } } abandoned s.ctl.peeks

end Sys2Proof.Machine
end

