-- ==== Sys2Proof/Machine/Trunks.lean ====
section
/-!
DEFINITION. The trunks as the layers above use them: lanes of a trunk, the trunk stream and its striping over the
active lanes, the replay buffers, the device route (R241, R280, R293, R294), and the flits the frame switch forms.
-/
namespace Sys2Proof.Machine
open Sys2Proof Reg

/-! ## Lanes and trunks (R280) -/

def laneAt (s : State) (n : Nat) : Lane := mget s.lnk.lane .reset n
def setLane (s : State) (n : Nat) (l : Lane) : State := { s with lnk := { s.lnk with lane := mset s.lnk.lane .reset n l } }
def trunkAt (s : State) (t : Nat) : Trunk := mget s.lnk.trunk .reset t
def setTrunk (s : State) (t : Nat) (x : Trunk) : State :=
  { s with lnk := { s.lnk with trunk := mset s.lnk.trunk .reset t x } }

/-- Training states (R295). -/
def lsDisabled : Nat := 0
def lsDetect : Nat := 1
def lsEq : Nat := 2
def lsAlign : Nat := 3
def lsConfig : Nat := 4
def lsReady : Nat := 5
def lsActive : Nat := 6
def lsFailed : Nat := 7
def lsBackoff : Nat := 8
def lsTest : Nat := 9

/-- Trunk link states (R308). -/
def tkInactive : Nat := 0
def tkTraining : Nat := 1
def tkActive : Nat := 2
def tkRecovering : Nat := 3
def tkDown : Nat := 4

/-- The enabled lanes whose TRUNK field is `t`, at most sixteen, in ascending order; a number from 96 on is no trunk (R280). -/
def trunkLanes (s : State) (t : Nat) : List Nat :=
  ((List.range 96).filter (fun n => decide (t < 96) && flag s (LANE_ENABLE n) && getF s (LANE_TRUNK n) == t)).take 16

/-- The trunk of a lane; `none` for no trunk: values 96 to 127, or beyond the sixteenth lane (R280, R308). -/
def trunkOfLane (s : State) (n : Nat) : Option Nat :=
  let t := getF s (LANE_TRUNK n)
  if t < 96 ∧ (trunkLanes s t).contains n then some t else none

/-- The logical index of a lane in its trunk. -/
def logicalOf (s : State) (t n : Nat) : Nat := ((trunkLanes s t).idxOf? n).getD 0

/-- The trunk exists: a lane is assigned to it (R280). -/
def trunkExists (s : State) (t : Nat) : Bool := !(trunkLanes s t).isEmpty

/-- Active lanes of a trunk, in the order of their logical index. -/
def activeLanes (s : State) (t : Nat) : List Nat := (trunkLanes s t).filter (fun n => getF s (LANE_STATE n) == lsActive)

/-- A mask over logical indices of a list of lanes. -/
def maskOf (s : State) (t : Nat) (ls : List Nat) : BitVec 16 :=
  ls.foldl (fun m n => m ||| BitVec.ofNat 16 (2 ^ logicalOf s t n)) 0

/-- System states of a trunk (R278). -/
def tsNone : Nat := 0
def tsQuarantine : Nat := 1
def tsUp : Nat := 2
def tsDown : Nat := 3

/-- The trunks that are UP. -/
def upTrunks (s : State) : List Nat := (List.range 96).filter (fun t => getF s (TS_STATE t) == tsUp)

/-- TRUNK: a trunk's state has changed (R390). -/
def traceTrunk (s : State) (t : Nat) : State :=
  formPacket s (srcLink t) 0x40 (leBytes 1 (getF s (LSTATE t)) ++ leBytes 2 (maskOf s t (activeLanes s t)).toNat
    ++ leBytes 1 (getF s (TS_STATE t)))

/-! ## Servo states (R323, R324) -/

/-- TSTATE changes (R323). -/
def setTstate (s : State) (v : Nat) : State :=
  if getF s TSTATE = v then s
  else raiseEv (setF { s with time := { s.time with good := 0, bad := 0 } } TSTATE v) evTimeState

def tsFreerun : Nat := 0
def tsAcquiring : Nat := 1
def tsLocked : Nat := 2
def tsHoldover : Nat := 3

/-- A follower whose PARENT trunk has left ACTIVE has lost its master (R324). -/
def parentLost (s : State) (t : Nat) : State :=
  if getF s TIME_ROLE = 1 ∧ getF s TIME_PARENT = t ∧ getF s TSTATE = tsLocked then setTstate s tsHoldover else s

/-- A trunk enters a link state; where it leaves ACTIVE, a follower may lose its master. -/
def setLstate (s : State) (t st : Nat) : State :=
  let s1 := traceTrunk (setF s (LSTATE t) st) t
  if getF s (LSTATE t) = tkActive ∧ st ≠ tkActive then parentLost s1 t else s1

/-! ## Flit types (R288) -/

def ftExch : Byte := 0x01
def ftMsg : Byte := 0x02
def ftTime : Byte := 0x03
def ftCtrl : Byte := 0x04
def ftFill : Byte := 0x05
def ftTrain : Byte := 0x06

/-- CSUB of a CTRL payload. -/
def csubOf (p : BitVec 224) : Nat := bitsOf p.toNat 0 8

/-- Bits [lo + n - 1 : lo] of a payload. -/
def pf (p : BitVec 224) (lo n : Nat) : Nat := bitsOf p.toNat lo n

/-- A trunk in this system state carries the flit: anything when UP, link-layer CTRL and HELLO in QUARANTINE (R251). -/
def mayCarry (ts : Nat) (f : Flit) : Bool :=
  ts == tsUp || (ts == tsQuarantine && f.type == ftCtrl && (csubOf f.payload == 0x10 || csubOf f.payload == 0x40))

/-! ## Sending on a lane (R283) -/

/-- A lane sends a flit: what goes out on its line, and the line's state after it. -/
def emit (s : State) (n : Nat) (seq : Byte) (f : Flit) : State :=
  let l := laneAt s n
  let e := l.tx.flit (bitList (Config.scrambleStart n).toNat 58) (flag s (LANE_FEC_ON n)) (flitWord f.type seq f.payload)
  let s1 := setLane s n { l with tx := e.2 }
  { s1 with lnk := { s1.lnk with out := s1.lnk.out ++ [(n, seq, f)], line := s1.lnk.line ++ [(n, e.1)] } }

/-! ## The trunk stream (R293, R294) -/

/-- The lane whose turn has come: the first active lane with logical index at or after the turn, else the first. -/
def laneInTurn (s : State) (t turn : Nat) : Option Nat :=
  let a := activeLanes s t
  match a.find? (fun n => decide (turn ≤ logicalOf s t n)) with
  | some n => some n
  | none => a.head?

/-- Flits of a lane that await acknowledgement. -/
def unacked (x : Trunk) (n : Nat) : Nat := (x.sent.filter (fun f => f.lane == n)).length

/-- Give the first flit the trunk may carry to the lane in turn, unless 240 flits of it await acknowledgement. -/
def pumpOne (s : State) (t : Nat) : State :=
  let x := trunkAt s t
  match x.queue.find? (mayCarry (getF s (TS_STATE t))), laneInTurn s t x.turnTx with
  | some f, some n =>
    if getF s (LSTATE t) = tkActive ∧ unacked x n < 240 then
      let l := laneAt s n
      let s1 := emit (setLane s n { l with txSeq := l.txSeq + 1 }) n l.txSeq f
      setTrunk s1 t { x with queue := x.queue.erase f, sent := x.sent ++ [⟨x.nextIdx, n, l.txSeq, f⟩],
                             nextIdx := x.nextIdx + 1, turnTx := logicalOf s t n + 1 }
    else s
  | _, _ => s

/-- Give waiting flits to lanes as far as R293 and R251 allow; `fuel` bounds the flits moved. -/
def pump (s : State) (t : Nat) : Nat → State
  | 0 => s
  | n + 1 =>
    let s1 := pumpOne s t
    if (trunkAt s1 t).queue.length < (trunkAt s t).queue.length then pump s1 t n else s1

/-- Pump a trunk's whole queue. -/
def pumpAll (s : State) (t : Nat) : State := pump s t (trunkAt s t).queue.length

/-- Send a sequenced flit on a trunk: it joins the trunk stream. A system message is traced. -/
def sendFlit (s0 : State) (t : Nat) (type : Byte) (payload : BitVec 224) : State :=
  let s := if type = ftCtrl ∧ 0x40 ≤ csubOf payload then traceSys s0 t 0 payload else s0
  let x := trunkAt s t
  pumpAll (setTrunk s t { x with queue := x.queue ++ [⟨type, payload⟩] }) t

/-- Send an unsequenced flit on a lane. -/
def sendUnseq (s : State) (n : Nat) (type : Byte) (payload : BitVec 224) : State := emit s n 0 ⟨type, payload⟩

/-- Send an unsequenced flit on each of a list of lanes. -/
def sendUnseqAll (s : State) (type : Byte) (payload : BitVec 224) : List Nat → State
  | [] => s
  | n :: r => sendUnseqAll (sendUnseq s n type payload) type payload r

/-- Send a sequenced flit on each of a list of trunks. -/
def sendOnTrunks (s : State) (type : Byte) (payload : BitVec 224) : List Nat → State
  | [] => s
  | t :: r => sendOnTrunks (sendFlit s t type payload) type payload r

/-! ## Run state and power state (R141, R248, R506) -/

/-- The HELLO payload of this device (R248). -/
def helloPayload (s : State) : BitVec 224 :=
  BitVec.ofNat 224 (0x40 + getF s DEV_ID * 2 ^ 8 + getF s FW_LEVEL * 2 ^ 17 + getF s SYS_LEVEL * 2 ^ 25
    + runState s * 2 ^ 33 + getF s SYS_EPOCH * 2 ^ 36 + s.sys.deviceImage.toNat * 2 ^ 68)

/-- The trunks that carry link-layer flits: ACTIVE, or RECOVERING, where they are held. -/
def liveTrunks (s : State) : List Nat :=
  (List.range 96).filter (fun t => getF s (LSTATE t) == tkActive || getF s (LSTATE t) == tkRecovering)

/-- Repeat the HELLO exchange on every live trunk: a value in HELLO has changed (R248). -/
def helloAll (s : State) : State := sendOnTrunks s ftCtrl (helloPayload s) (liveTrunks s)

/-- The power state that goes with a run state (R506). -/
def powerOf (st : Nat) : Nat := if st = stIdle then 2 else if st = stRunning then 4 else 3

/-- The power state follows the run state, and a change raises POWER_STATE (R506). -/
def setPower (s : State) (v : Nat) : State :=
  if getF s PWR_STATE = v then s else raiseEv (setF s PWR_STATE v) evPowerState

/-- Enter a run state: the power state follows, and partners hear of it (R141, R248, R506). A fault stop or freeze
interrupts an acquisition in progress (R378). -/
def setRunState (s : State) (st : Nat) : State :=
  if runState s = st then s
  else
    let s0 := setF s SEQ_STATE st
    let s1 := if (st = stFaulted ∨ st = stFrozen) ∧ 1 ≤ getF s ASTATE ∧ getF s ASTATE ≤ 3 then
      setFlag s0 ACQ_INTERRUPTED true else s0
    helloAll (if getF s1 PWR_STATE < 2 then s1 else setPower s1 (powerOf st))

/-! ## TIME flits (R316, R318, R320) -/

/-- Local time in units of 2^-16 ns. -/
def now16 (s : State) : Nat := nowNs s * 65536 + s.time.frac.toNat / 2 ^ 24

/-- A TIME payload (R318). -/
def timeBits (s : State) (msg seq sec ns : Nat) (corr : Int) (gm : Bool) : BitVec 224 :=
  BitVec.ofNat 224 (msg + seq % 65536 * 2 ^ 8 + getF s DEV_ID * 2 ^ 24 + getF s TSTATE * 2 ^ 33 + gm.toNat * 2 ^ 36
    + sec * 2 ^ 48 + ns * 2 ^ 96 + patternOf 64 corr * 2 ^ 128)

/-- The next SEQ_ID of a sender and message kind; and it advances, modulo 65,536. -/
def nextSeqId (s : State) (k : Nat) : Nat := mget s.time.seqTx 0 k
def bumpSeqId (s : State) (k : Nat) : State :=
  { s with time := { s.time with seqTx := mset s.time.seqTx 0 k ((nextSeqId s k + 1) % 65536) } }

/-- Send a TIME flit on a trunk's lowest active lane (R288, R316). -/
def sendTimeFlit (s : State) (t : Nat) (p : BitVec 224) : State :=
  match (activeLanes s t).head? with
  | some n => sendUnseq s n ftTime p
  | none => s

/-- The trunk is one to a child. -/
def childTrunk (s : State) (t : Nat) : Bool :=
  bitOf (getF s (if t < 32 then TIME_CHILD0 else if t < 64 then TIME_CHILD1 else TIME_CHILD2)) (t % 32)

/-- The trunk carries time: to the parent or to a child (R320). -/
def carriesTime (s : State) (t : Nat) : Bool :=
  childTrunk s t || (getF s TIME_ROLE == 1 && getF s TIME_PARENT == t)

/-- PDELAY_REQ is sent on a trunk: its t1 is kept (R320). -/
def askDelay (s : State) (t : Nat) : State :=
  let q := nextSeqId s (t * 4 + 2)
  let s1 := sendTimeFlit (bumpSeqId s (t * 4 + 2)) t (timeBits s 2 q 0 0 0 false)
  { s1 with time := { s1.time with asked := mset s1.time.asked none t (some (q, now16 s)) } }

/-- The active set of a trunk has changed: its path delay is discarded, and an exchange starts at once (R316). -/
def newActiveSet (s : State) (t : Nat) : State :=
  let s1 := { s with time := { s.time with mpdOk := mset s.time.mpdOk false t false } }
  if carriesTime s t then askDelay s1 t else s1

/-! ## Messages that flood (R249) -/

/-- Remember a system message, so that later copies are discarded; SEQ counts modulo 256, so a number half a round
behind is forgotten (R249). -/
def remember (s : State) (csub origin seq : Nat) : State :=
  let kept := s.sys.seen.filter (fun e =>
    !(e.1 == csub && e.2.1 == origin && decide (128 ≤ (seq + 256 - e.2.2) % 256)))
  { s with sys := { s.sys with seen := (csub, origin, seq) :: kept } }

/-- Send a system message of this device on every UP trunk: it takes the CSUB's next SEQ (R249). -/
def originate (s : State) (csub body : Nat) : State :=
  let seq := (mget s.sys.ownSeq 0 csub).toNat
  let s0 := { s with sys := { s.sys with ownSeq := mset s.sys.ownSeq 0 csub (BitVec.ofNat 8 (seq + 1)) } }
  let s1 := remember s0 csub (getF s DEV_ID) seq
  sendOnTrunks s1 ftCtrl (BitVec.ofNat 224 (csub + getF s DEV_ID * 2 ^ 8 + seq * 2 ^ 17 + body)) (upTrunks s1)

/-- STOP_NOTICE (R249, R263). -/
def stopNotice (s : State) (cause cycle : Nat) : State := originate s 0x43 (cause * 2 ^ 25 + cycle * 2 ^ 29)

/-- FAULT_NOTICE (R249, R264). -/
def faultNotice (s : State) : State :=
  originate s 0x44 (getF s FAULT_CODE * 2 ^ 25 + getF s FAULT_CYCLE * 2 ^ 41)

/-- FREEZE (R249, R266). -/
def freezeNotice (s : State) (trunk cycle : Nat) : State := originate s 0x45 (trunk * 2 ^ 25 + cycle * 2 ^ 32)

/-! ## Faults that stop the device (R82, R134, R264) -/

/-- The cycle in progress is abandoned: no commit. Writes, requests and target bits of the cycle are discarded, net
spaces keep their values, and PEEKs that waited are answered (R82, R169, R468). -/
def abandonCycle (s : State) : State :=
  answerPeeks (setF { s with cyc := { s.cyc with faulted := true }, eng := { s.eng with mmp := killReads s.eng.mmp } } IN_CYCLE 0) true

/-- The command STOP is answered with the number of the next cycle once the device no longer runs (R466). -/
def answerStops (s : State) : State :=
  let ids := (s.ctl.calls.filter (fun c => c.opcode == 0x0402)).map (fun c => c.id)
  finalReplies s rsOk (leBytes 8 (getF s CYCLE_NUM)) ids

/-- The latest step clock that a cluster has reached in this cycle. -/
def deviceNow (s : State) : Nat := s.cyc.dieNow.foldl (fun m e => max m e.2) 0

/-- The clusters that a fault found running may go on for up to 64 step clocks (R82). -/
def openLate (s : State) (running : Bool) : State :=
  { s with cyc := { s.cyc with late := if running then some (deviceNow s, []) else none } }

/-- The device stops by a fault: no further tick, run state FAULTED, STOP_CAUSE 8, and the others are told. -/
def faultStop (s : State) : State :=
  if runState s = stFaulted then s
  else faultNotice (answerStops (setRunState (setF (openLate (abandonCycle s) (flag s IN_CYCLE)) STOP_CAUSE 8) stFaulted))

/-- A recorded fault stops the device by R82; once the fault gate has passed the commit runs to its end, and the device
stops after it (R134). -/
def actOnFault (s : State) : State :=
  if flag s IN_COMMIT then { s with cyc := { s.cyc with faulted := true } } else faultStop s

/-- A fault that no step raises. -/
def raiseFault (s : State) (code loc : Nat) : State := actOnFault (recordFault s code loc)

/-- A faulting cluster issues no further step (R82). -/
def stopCluster (s : State) (pc : Nat) : State :=
  match s.cyc.late with
  | none => s
  | some (c, l) => { s with cyc := { s.cyc with late := some (c, pc :: l) } }

/-- A fault of a cluster that its steps do not raise by issuing. -/
def raiseFaultAt (s : State) (pc code loc : Nat) : State := stopCluster (raiseFault s code loc) pc

/-- The other clusters stop within 64 step clocks of the earliest fault (R82). -/
def limitLate (first : Bool) (c : Nat) (s : State) : State :=
  match s.cyc.late with
  | none => s
  | some (d, l) => { s with cyc := { s.cyc with late := some (if first then c else min c d, l) } }

/-- A fault that a step of a cluster raises in step clock `c`. -/
def raiseStepFault (s : State) (pc code loc c : Nat) : State :=
  stopCluster (limitLate (runState s != stFaulted) c (actOnFault (recordStepFault s code loc c))) pc

/-! ## Device routes and the frame switch (R241, R244, R245) -/

/-- The trunk on which frames for a device leave: a valid entry whose trunk exists (R241). -/
def routeOfDev (s : State) (dev : Nat) : Option Nat :=
  let t := getF s (DR_TRUNK dev)
  if flag s (DR_VALID dev) ∧ trunkExists s t then some t else none

/-- ROUTE_UNBOUND at the frame switch: the location names the device only (R543). -/
def switchUnbound (s : State) : State := raiseFault s fcRouteUnbound (locDevice s)

/-- The 23 bits of a record in an EXCH flit (R244). -/
def exchBits (r : XRec) : Nat :=
  if r.credit then 2 ^ 22 + r.die.toNat * 2 ^ 20 + r.tile.toNat * 2 ^ 15 + r.entry.toNat
  else r.die.toNat * 2 ^ 20 + r.tile.toNat * 2 ^ 15 + r.cluster.toNat * 2 ^ 11 + r.rslot.toNat * 4 + r.value.toNat * 2

/-- A record of an EXCH flit from its 23 bits. -/
def exchRec (dev cyc v : Nat) : XRec :=
  { credit := bitOf v 22, dev := BitVec.ofNat 9 dev, die := BitVec.ofNat 2 (bitsOf v 20 2),
    tile := BitVec.ofNat 5 (bitsOf v 15 5), cluster := if bitOf v 22 then 0 else BitVec.ofNat 4 (bitsOf v 11 4),
    rslot := if bitOf v 22 then 0 else BitVec.ofNat 9 (bitsOf v 2 9),
    entry := if bitOf v 22 then BitVec.ofNat 12 v else 0, value := !bitOf v 22 && bitOf v 1,
    cyc := BitVec.ofNat 8 cyc }

/-- The records of a payload placed from bit 40 on. -/
def exchBody : List XRec → Nat
  | [] => 0
  | r :: rest => exchBits r + 2 ^ 23 * exchBody rest

/-- The payload of an EXCH flit first sent by this device (R244). -/
def exchPayload (s : State) (dev : Nat) (rs : List XRec) : BitVec 224 :=
  let cyc := ((rs.head?.map (fun r : XRec => r.cyc)).getD 0).toNat
  BitVec.ofNat 224 (cyc * 2 ^ 7 + (rs.length - 1) * 2 ^ 19 + getF s DEV_ID * 2 ^ 22 + dev * 2 ^ 31 + exchBody rs * 2 ^ 40)

/-- Close the open EXCH flit for a device and send it on the device's trunk (R245). -/
def closeExch (s : State) (dev : Nat) : State :=
  match mget s.ex.flits [] dev with
  | [] => s
  | r :: rs =>
    let s1 := { s with ex := { s.ex with flits := mset s.ex.flits [] dev [] } }
    match routeOfDev s dev with
    | some t => sendFlit s1 t ftExch (exchPayload s dev (r :: rs))
    | none => switchUnbound s1

/-- A record for another device reaches the frame switch: ROUTE_UNBOUND with no path, else it joins the device's open
flit, which holds records of one cycle only and closes at eight (R241, R245). -/
def switchRecord (s : State) (r : XRec) : State :=
  let dev := r.dev.toNat
  if (routeOfDev s dev).isNone then switchUnbound s
  else
    let s1 := match (mget s.ex.flits [] dev).head? with
      | some h => if h.cyc = r.cyc then s else closeExch s dev
      | none => s
    let l := mget s1.ex.flits [] dev ++ [r]
    let s2 := { s1 with ex := { s1.ex with flits := mset s1.ex.flits [] dev l } }
    if l.length = 8 then closeExch s2 dev else s2

/-! ## MSG flits (R360) -/

/-- The payload of an MSG flit. -/
def msgPayload (s : State) (dst qidx kind body : Nat) : BitVec 224 :=
  BitVec.ofNat 224 (dst + getF s DEV_ID * 2 ^ 9 + qidx * 2 ^ 18 + kind * 2 ^ 36 + body * 2 ^ 46)

/-- Send an MSG flit toward a device by DEV_ROUTE; with no path the frame switch raises ROUTE_UNBOUND (R241). -/
def sendMsg (s : State) (dst qidx kind body : Nat) : State :=
  match routeOfDev s dst with
  | some t => sendFlit s t ftMsg (msgPayload s dst qidx kind body)
  | none => switchUnbound s

end Sys2Proof.Machine
end

