-- ==== Sys2Proof/Machine/Flags.lean ====
section
/-!
DEFINITION. The flags SND, CAP and CNS of an instruction word (R77 to R79), the faults a word raises (R54, R55, R56,
R62 to R72, R77, R99, R114), and the issue of one word.
-/
namespace Sys2Proof.Machine
open Sys2Proof Reg

/-! ## Sending (R97, R102, R105 to R109) -/

/-- The bridge module by which a record of this device leaves source tile `t` for another die or device (R107). -/
def moduleOf (t dstDie : Nat) (otherDev : Bool) : Nat :=
  let die := t / 32
  let row := t % 32 / 8
  let col := t % 8
  if otherDev ∨ die ^^^ dstDie = 3 then die * 8 + 2 * row + col % 2
  else if die ^^^ dstDie = 1 then 64 + die * 4 + min col 3
  else 80 + die * 4 + min col 3

/-- The number of an open frame: module, destination die and device (R109). -/
def openKey (m die dev : Nat) : Nat := (m * 4 + die) * 512 + dev

/-- Close the open frame of a key: it takes the module's next SEQ and goes under way (R109, R110). -/
def closeFrame (s : State) (m die dev : Nat) : State :=
  match mget s.ex.opened [] (openKey m die dev) with
  | [] => s
  | r :: rs =>
    let q := mget s.ex.seqTx 0 m
    let f : Frame := ⟨BitVec.ofNat 9 dev, BitVec.ofNat 2 die, q, r :: rs⟩
    { s with ex := { s.ex with
        opened := mset s.ex.opened [] (openKey m die dev) [],
        frames := mset s.ex.frames [] m (mget s.ex.frames [] m ++ [f]),
        seqTx := mset s.ex.seqTx 0 m (q + 1) } }

/-- A record enters the frame engine of module `m`; a frame with 24 records closes (R109). -/
def enterFrame (s : State) (m : Nat) (r : XRec) : State :=
  let k := openKey m r.die.toNat r.dev.toNat
  let l := mget s.ex.opened [] k ++ [r]
  let s1 := { s with ex := { s.ex with opened := mset s.ex.opened [] k l } }
  if l.length = 24 then closeFrame s1 m r.die.toNat r.dev.toNat else s1

/-- A record leaves tile `t`: onto the mesh of its own die, or into a frame engine (R105 to R109). It carries the
low byte of the cycle number (R244). -/
def inject (s : State) (t : Nat) (r0 : XRec) : State :=
  let r := { r0 with cyc := BitVec.ofNat 8 (getF s CYCLE_NUM) }
  if r.dev.toNat = getF s DEV_ID ∧ r.die.toNat = t / 32 then
    { s with ex := { s.ex with transit := s.ex.transit ++ [r] } }
  else enterFrame s (moduleOf t r.die.toNat (r.dev.toNat != getF s DEV_ID)) r

/-- The value record for a DIRECT entry (R110). -/
def valueRec (r : BitVec 32) (v : Bool) : XRec :=
  ⟨false, BitVec.ofNat 9 (rtDev r), BitVec.ofNat 2 (rtDie r), BitVec.ofNat 5 (rtTile r),
    BitVec.ofNat 4 (rtCluster r), BitVec.ofNat 9 (rtSlot r), 0, v, 0⟩

/-- A value goes to one DIRECT entry: a credit less and a record on its way, or, DETACHED, dropped and counted
(R97, R229). -/
def sendDirect (s : State) (t e : Nat) (v : Bool) : State :=
  if mget s.eng.detached false (t * 4096 + e) then addF s (EXCH_DISCARD t) 1
  else
    let s1 := { s with eng := { s.eng with credit := mset s.eng.credit 5 (t * 4096 + e) (creditOf s t e - 1) } }
    inject s1 t (valueRec (routeAt s t e) v)

/-- A value goes to every destination of a route. -/
def sendAll (s : State) (t : Nat) (v : Bool) : List Nat → State
  | [] => s
  | e :: r => sendAll (sendDirect s t e v) t v r

/-! ## The three flags -/

/-- SND: the word of rank k sends its result bit on route ID base + k (R77). -/
def sendResult (s : State) (w : Site) (v : Bool) : State :=
  let word := wordAt s w.pc.toNat w.half w.bp.toNat w.step.toNat
  if sndOf word then
    match (senders s w.pc.toNat w.half w.step.toNat).idxOf? w.bp.toNat with
    | some k =>
      let t := tileOfPc w.pc.toNat
      sendAll s t v ((destsOf s t (routeId s w.pc.toNat w.half w.step.toNat k)).getD [])
    | none => s
  else s

/-- CAP: the captured bit of the word becomes its result bit (R78). -/
def captureResult (s : State) (w : Site) (v : Bool) : State :=
  let k := wkey s w.pc.toNat w.half w.bp.toNat w.step.toNat
  if capOf (mget s.eng.imem 0 k) then { s with eng := { s.eng with capBit := mset s.eng.capBit false k v } } else s

/-- The credit record for the entry that feeds a receive slot (R97, R110). -/
def creditRec (f : Feeder) : XRec := ⟨true, f.dev, f.die, f.tile, 0, 0, f.entry, false, 0⟩

/-- One receive slot is emptied: its buffer's head moves up, and one credit goes back to the feeding entry. A slot
consumed by an earlier word of this step, or under SUBSTITUTE, is left alone (R79, R96, R97, R229). -/
def consumeSlot (s : State) (pc : Nat) (half : Bool) (slot : Nat) : State :=
  let h := halfOf s pc half
  if !isRecv slot || substituted s pc slot || (h.old.lookup slot).isSome then s
  else
    match recvQ s pc slot with
    | [] => s
    | v :: rest =>
      let s1 := setHalf s pc half { h with old := (slot, v) :: h.old }
      let s2 := { s1 with eng := { s1.eng with recv := mset s1.eng.recv [] (recvKey pc slot) rest } }
      match mget s.eng.feeder none (recvKey pc slot) with
      | some f => inject s2 (tileOfPc pc) (creditRec f)
      | none => s2

/-- Empty a list of slots. -/
def consumeSlots (s : State) (pc : Nat) (half : Bool) : List Nat → State
  | [] => s
  | x :: r => consumeSlots (consumeSlot s pc half x) pc half r

/-- CNS: the receive slots named by the operands the opcode reads are consumed (R79). -/
def consumeOperands (s : State) (w : Site) : State :=
  let word := wordAt s w.pc.toNat w.half w.bp.toNat w.step.toNat
  if cnsOf word then consumeSlots s w.pc.toNat w.half (readsOf word) else s

/-- What every word with a result bit does after its own effect: capture, send, consume. -/
def finishWord (s : State) (w : Site) (v : Bool) : State :=
  consumeOperands (sendResult (captureResult s w v) w v) w

/-! ## Faults of a word (R81) -/

/-- Is a slot number outside the half of a folded logical cluster (R55, R189)? -/
def outsideHalf (half : Bool) (slot : Nat) : Bool :=
  if slot < 0x600 then (if half then decide (slot < 0x300) else decide (0x300 ≤ slot))
  else if slot < 0x7C0 then (if half then decide (slot < 0x6E0) else decide (0x6E0 ≤ slot))
  else false

/-- SLOT_LIMIT: a DST that is no local slot, or any slot outside the folded half (R55). -/
def slotLimit (s : State) (pc : Nat) (half : Bool) (w : BitVec 80) : Bool :=
  (writesDst w && decide (0x600 ≤ dstOf w))
    || (foldedAt s pc && ((writesDst w && outsideHalf half (dstOf w)) || (readsOf w).any (outsideHalf half)))

/-- The fault of a word's own opcode: range and binding checks (R62 to R72). -/
def opFault (s : State) (pc : Nat) (half : Bool) (w : BitVec 80) : Option Nat :=
  let o := opcOf w
  let t := tileOfPc pc
  let p := portOf w
  if o = opLds ∨ o = opSts then (if foldedAt s pc ∧ 0x7FFF < saddrOf w then some fcStateRange else none)
  else if o = opMpa then
    if ¬ mmpOwned s pc half p then some fcPortUnbound
    else if ¬ mpaBitOk s t p (selOf w) (bitIdxOf w) then some fcMmpRange else none
  else if o = opMpg then
    if ¬ mmpOwned s pc half p then some fcPortUnbound
    else if (mmpAt s t p).usedRead.contains (seqOf w) || (mmpAt s t p).usedWrite.contains (seqOf w) then
      some fcMmpRange
    else none
  else if o = opMpr then
    if ¬ mmpOwned s pc half p then some fcPortUnbound
    else if mprFaults s pc half w then some fcMmpRange else none
  else if o = opMsr ∨ o = opMsw then (if ¬ msgOwned s pc half p then some fcPortUnbound else none)
  else if o = opMsp then
    if ¬ msgOwned s pc half p then some fcPortUnbound
    else if readNet s pc half (aOf w) ∧
        (if selOf w then (msgAt s (t * 16 + p)).push else (msgAt s (t * 16 + p)).pop) then some fcPortRepeat
    else none
  else if o = opTpo then (if ¬ targetOwned s.eng.tbOut pc half p (bitIdxOf w) then some fcPortUnbound else none)
  else if o = opTpi then (if ¬ targetOwned s.eng.tbIn pc half p (bitIdxOf w) then some fcPortUnbound else none)
  else none

/-- What a word writes, as a number that two words share exactly when they write the same local slot, state address,
register bit or target bit; `none` where it writes nothing that can be contested (R56, R60, R64, R72). -/
def targetOf (s : State) (pc : Nat) (half : Bool) (w : BitVec 80) : Option Nat :=
  let o := opcOf w
  if o = opEvalm then (if readNet s pc half (dOf w) then some (dstOf w) else none)
  else if writesDst w then some (dstOf w)
  else if o = opSts then some (0x10000 + saddrOf w)
  else if o = opMpa then some (0x20000 + (portOf w * 2 + (selOf w).toNat) * 256 + bitIdxOf w)
  else if o = opTpo then some (0x30000 + portOf w * 256 + bitIdxOf w)
  else none

/-- The word at a BP writes contested target `k`: it is legal, was fetched whole and has no fault of its own. -/
def writerOf (s : State) (pc : Nat) (half : Bool) (step k bp : Nat) : Bool :=
  let w := wordAt s pc half bp step
  !dblErr s pc half bp step && !illegalOpc (opcOf w) && !slotLimit s pc half w && (opFault s pc half w).isNone
    && targetOf s pc half w == some k

/-- The BPs of a step that write target `k`, in ascending order. -/
def writersOf (s : State) (pc : Nat) (half : Bool) (step k : Nat) : List Nat :=
  (List.range 64).filter (fun bp => writerOf s pc half step k bp)

/-- What the issue of a word comes to: the fault codes it raises, and whether it executes. -/
structure Verdict where
  faults : List Nat
  runs : Bool
deriving DecidableEq, Repr

/-- The send of a word: `(SEND_LIMIT raised here, dead by rank, ROUTE_UNBOUND)` (R77, R99, R114). -/
def sendFault (s : State) (w : Site) : List Nat × Bool :=
  match (senders s w.pc.toNat w.half w.step.toNat).idxOf? w.bp.toNat with
  | none => ([], false)
  | some k =>
    if 16 ≤ k then ((if k = 16 then [fcSendLimit] else []), true)
    else if (destsOf s (tileOfPc w.pc.toNat) (routeId s w.pc.toNat w.half w.step.toNat k)).isNone then
      ([fcRouteUnbound], true)
    else ([], false)

/-- The faults of a word and whether it executes (R81, R82): words named as faulting execute nothing. A word that breaks several rules
raises its faults in the order SLOT_LIMIT, the opcode's own, DOUBLE_WRITE, the send's; ECC_UNCORR and ILLEGAL_OP stand alone (DESIGN
CHOICE 108). -/
def verdict (s : State) (w : Site) : Verdict :=
  let pc := w.pc.toNat
  let word := wordAt s pc w.half w.bp.toNat w.step.toNat
  if dblErr s pc w.half w.bp.toNat w.step.toNat then ⟨[fcEccUncorr], false⟩
  else if illegalOpc (opcOf word) then ⟨[fcIllegalOp], false⟩
  else
    let own := (if slotLimit s pc w.half word then [fcSlotLimit] else []) ++ (opFault s pc w.half word).toList
    let ws := match targetOf s pc w.half word with
      | some k => if own.isEmpty then writersOf s pc w.half w.step.toNat k else []
      | none => []
    let dbl := if 2 ≤ ws.length ∧ ws.head? = some w.bp.toNat then [fcDoubleWrite] else []
    let snd := sendFault s w
    ⟨own ++ dbl ++ snd.1, own.isEmpty && decide (ws.length < 2) && !snd.2⟩

/-! ## The issue of one word -/

/-- The first exchange fault of a tile since EXCH_FAULT was cleared (R115), and its TILE_ERR event (R489). -/
def exchFault (s : State) (t kind entry cluster slot : Nat) : State :=
  if flag s (EF_VALID t) then s
  else raiseEv (setFs s [(EF_VALID t, 1), (EF_KIND t, kind), (EF_ENTRY t, entry % 4096), (EF_CLUSTER t, cluster),
    (EF_ENTRY_HI t, entry / 4096 % 2), (EF_SLOT t, slot)]) (tileEv t 2)

/-- Raise a word's faults in order; a ROUTE_UNBOUND writes its tile's EXCH_FAULT with the route ID (R115). -/
def raiseWordFaults (s : State) (w : Site) : List Nat → State
  | [] => s
  | c :: r =>
    let pc := w.pc.toNat
    let s1 :=
      if c = fcRouteUnbound then
        let k := ((senders s pc w.half w.step.toNat).idxOf? w.bp.toNat).getD 0
        exchFault s (tileOfPc pc) 2 (routeId s pc w.half w.step.toNat k) (pc % 16) 0
      else s
    raiseWordFaults (raiseStepFault s1 pc c (locOf s pc w.half w.bp.toNat w.step.toNat) (issueClock s pc w.half w.step.toNat)) w r

/-- The answer of the issue logic to one word. -/
inductive Admit where
  | refuse             -- the word cannot issue here and now
  | hold (s : State)   -- its step holds for one step clock
  | issue (s : State)  -- it issues; its step has begun and the words below it have issued
deriving DecidableEq, Repr

/-- The corrections of a step's fetch: each single-bit error is corrected for this fetch and awaits its scrub (R46). -/
def correctFetch (s : State) (pc : Nat) (half : Bool) (step : Nat) : List Nat → State
  | [] => s
  | bp :: r =>
    correctFetch { s with eng := { s.eng with imemErr := mset s.eng.imemErr 0 (wkey s pc half bp step) 3 } }
      pc half step r

/-- KIND and DETAIL of the first hold of a list (R145, R390). -/
def holdCause : List Hold → Nat × Nat
  | .recv _ slot :: _ => (1, slot)
  | .credit _ id :: _ => (2, id)
  | .mmp _ port seq :: _ => (3, port * 64 + seq)
  | _ => (5, 0)

/-- Count a hold of `n` step clocks: HOLD_CLOCKS, MMP_HOLD for each port an MPR waits on, and the die watchdog (R144, R147, R178). The
physical cluster holds as a whole (R39). -/
def countHold (s : State) (pc : Nat) (half : Bool) (step : Nat) (hs : List Hold) (n : Nat) : State :=
  let s0 := if hs.contains .fetch then correctFetch s pc half step (singleErrBps s pc half step) else s
  let d := dieOfPc pc
  let s1 := addF { s0 with cyc := { s0.cyc with dieHolds := mset s0.cyc.dieHolds 0 d (mget s0.cyc.dieHolds 0 d + n) } }
    (HOLD_CLOCKS d) n
  let h := halfOf s1 pc half
  let s2 := setHalf s1 pc half { h with holds := h.holds + n, cause := if h.holds = 0 then holdCause hs else h.cause }
  let ports := (hs.filterMap (fun h => match h with | .mmp _ p _ => some p | _ => none)).eraseDups
  let s3 := ports.foldl (fun a p => addF a (MMP_HOLD (tileOfPc pc) p) n) s2
  noteWait (loseClocks s3 pc n) d (issueClock s pc half step + n)

/-- May the word issue? Words of one step issue in ascending BP order in the step clock of the step; a step begins
when the cluster stands before it, its block is taken, nothing holds it and, in a folded cluster, the turn is its half's (R39, R43,
R118, R128). After a fault the words of a step already issued complete, the faulting cluster begins no step, and another one may within
64 step clocks (R82). -/
def admission (s : State) (w : Site) : Admit :=
  let pc := w.pc.toNat
  let step := w.step.toNat
  let bp := w.bp.toNat
  let h := halfOf s pc w.half
  if h.issuing ∧ h.step = step then
    if (flag s IN_CYCLE ∨ s.cyc.faulted) ∧ h.nextBp ≤ bp
        ∧ (activeBps s pc w.half step).all (fun b => b < h.nextBp || bp ≤ b) then
      .issue (setHalf s pc w.half { h with nextBp := bp + 1 })
    else .refuse
  else if mayGoOn s pc (issueClock s pc w.half step) ∧ halfRuns s pc w.half ∧ nextStep h ≤ step
      ∧ step < progLen (progOf s pc w.half) ∧ standsBefore s pc w.half step ∧ stepTaken s pc w.half step
      ∧ inTurn s pc w.half step ∧ (activeBps s pc w.half step).all (fun b => bp ≤ b) then
    let hs := stepHolds s pc w.half step
    if hs.isEmpty then
      let s1 := if h.holds = 0 then s else traceHold s pc w.half h.cause.1 step h.holds h.cause.2
      .issue (noteIssue (setHalf s1 pc w.half { h with issuing := true, step := step, nextBp := bp + 1, old := [], holds := 0 })
        (dieOfPc pc) (issueClock s pc w.half step))
    else .hold (countHold s pc w.half step hs 1)
  else .refuse

/-- One word issues: the row named applies when the stored word is the one it stands for; the word's faults are
raised, and when it executes its own effect `body` follows. -/
def issueWord (s : State) (w : Site) (row : BitVec 80 → Bool) (body : State → BitVec 80 → State) :
    Host.Outcome State Fault Refusal :=
  let word := wordAt s w.pc.toNat w.half w.bp.toNat w.step.toNat
  if ¬ row word ∨ ¬ stepClock s then .next s
  else
    match admission s w with
    | .refuse => .next s
    | .hold s1 => .next s1
    | .issue s1 =>
      let v := verdict s1 w
      .next (raiseWordFaults (if v.runs then body s1 word else s1) w v.faults)

end Sys2Proof.Machine
end

