-- ==== Sys2Proof/Machine/Exchange.lean ====
section
/-!
DEFINITION. Records on their way between clusters (R95 to R117): arrival of values and credits, exchange frames over
the bridge modules, bridge faults and retrains, and the closing of EXCH flits at the frame switch.
-/
namespace Sys2Proof.Machine
open Sys2Proof Reg

/-! ## Arrival at the destination tile -/

/-- The physical cluster a record is addressed to. -/
def pcOfRec (r : XRec) : Nat := r.die.toNat * 512 + r.tile.toNat * 16 + r.cluster.toNat

/-- The receive slot number a value record is addressed to. -/
def slotOfRec (r : XRec) : Nat := 0x600 + r.rslot.toNat

/-- The first record in transit of a kind. -/
def oldest (s : State) (p : XRec → Bool) : Option XRec := s.ex.transit.find? p

/-- Take a record out of transit. -/
def arrive (s : State) (r : XRec) : State := { s with ex := { s.ex with transit := s.ex.transit.erase r } }

/-- A value is discarded and counted at its destination tile (R117, R229, R543). -/
def discardValue (s : State) (r : XRec) : State := addF s (EXCH_DISCARD (pcOfRec r / 16)) 1

/-- A value reaches its destination tile: a gated or resetting tile, an unbound half and a slot under SUBSTITUTE
discard it; a full slot and buffer raise RECV_SHARED; else it joins the slot's queue (R95, R103, R114, R117, R229). -/
def receiveValue (s : State) (r : XRec) : State :=
  let pc := pcOfRec r
  let t := pc / 16
  let slot := slotOfRec r
  let half := halfOfOffset s pc r.rslot.toNat
  if tileIdle s t ∨ unboundHalf s pc half ∨ substituted s pc slot then
    discardValue s r
  else
    let q := recvQ s pc slot
    if 5 ≤ q.length then
      let e := match mget s.eng.feeder none (recvKey pc slot) with
        | some f => f.entry.toNat
        | none => 0
      let s1 := exchFault s t 1 e (pc % 16) slot
      raiseFaultAt s1 pc fcRecvShared (locOf s1 pc half 0 (presentedStep s pc half % 2048))
    else { s with eng := { s.eng with recv := mset s.eng.recv [] (recvKey pc slot) (q ++ [r.value]) } }

/-- A value record arrives: the oldest on its way to the slot (R108). -/
def execValueRecord (pc : BitVec 11) (rslot : BitVec 9) (s : State) : Host.Outcome State Fault Refusal :=
  match oldest s (fun r => !r.credit && pcOfRec r == pc.toNat && r.rslot == rslot) with
  | some r => .next (receiveValue (arrive s r) r)
  | none => .next s

/-- A credit reaches the feeding tile: its entry's counter goes up by one (R97). -/
def receiveCredit (s : State) (r : XRec) : State :=
  let k := (r.die.toNat * 32 + r.tile.toNat) * 4096 + r.entry.toNat
  { s with eng := { s.eng with credit := mset s.eng.credit 5 k (mget s.eng.credit 5 k + 1) } }

/-- A credit record arrives at the tile that fed the slot. -/
def execCreditRecord (tile : BitVec 7) (entry : BitVec 12) (s : State) : Host.Outcome State Fault Refusal :=
  match oldest s (fun r => r.credit && r.die.toNat * 32 + r.tile.toNat == tile.toNat && r.entry == entry) with
  | some r => .next (receiveCredit (arrive s r) r)
  | none => .next s

/-! ## Frames and bridges (R107 to R111) -/

/-- The 20 bits of a record in an exchange frame (R110). -/
def recordWord (r : XRec) : BitVec 20 :=
  if r.credit then BitVec.ofNat 20 (2 ^ 19 + r.tile.toNat * 2 ^ 14 + r.entry.toNat)
  else BitVec.ofNat 20 (r.tile.toNat * 2 ^ 14 + r.cluster.toNat * 2 ^ 10 + r.rslot.toNat * 2 + r.value.toNat)

/-- The records of a frame placed one after another. -/
def recordWords : List XRec → Nat
  | [] => 0
  | r :: rest => (recordWord r).toNat + 2 ^ 20 * recordWords rest

/-- The 512 bits of an exchange frame formed on compute die `src` (R110). -/
def frameWord (s : State) (src : Nat) (f : Frame) : BitVec 512 :=
  let ftype := if f.dev.toNat = getF s DEV_ID then 1 else 2
  BitVec.ofNat 512 (f.seq.toNat * 2 ^ 2 + f.recs.length * 2 ^ 10 + f.dev.toNat * 2 ^ 15 + f.die.toNat * 2 ^ 24
    + src * 2 ^ 26 + ftype * 2 ^ 28 + recordWords f.recs * 2 ^ 32)

/-- The hub module by which the frame switch sends a record to its destination tile: its row, by the parity of its
column (R107). -/
def downModule (die tile : Nat) : Nat := 32 + die * 8 + 2 * (tile / 8) + tile % 2

/-- A record reaches the hub frame switch (R107, R109, R241). -/
def hubRecord (s : State) (r : XRec) : State :=
  if r.dev.toNat = getF s DEV_ID then enterFrame s (downModule r.die.toNat r.tile.toNat) r else switchRecord s r

/-- Records of a frame reach the hub, in order. -/
def hubRecords (s : State) : List XRec → State
  | [] => s
  | r :: rest => hubRecords (hubRecord s r) rest

/-- The records of a frame leave the receiving engine: to the frame switch from a die-to-hub module, else onto the
mesh of the destination die. -/
def deliverFrame (s : State) (m : Nat) (f : Frame) : State :=
  if m < 32 then hubRecords s f.recs else { s with ex := { s.ex with transit := s.ex.transit ++ f.recs } }

/-- The receiving end of a module: hub side, neighbour bridge, compute die, peer die, module number, hosting tile. -/
def bridgeEnd (m : Nat) : Bool × Bool × Nat × Nat × Nat × Nat :=
  if m < 32 then (true, false, m / 8, 0, m % 8, 0)
  else if m < 64 then (false, false, (m - 32) / 8, 0, m % 8, (m - 32) / 8 * 32 + m % 8 / 2 * 8)
  else if m < 80 then
    let d := (m - 64) / 4
    (false, true, d ^^^ 1, d, m % 4, (d ^^^ 1) * 32 + m % 4)
  else
    let d := (m - 80) / 4
    (false, true, d ^^^ 2, d, m % 4, (d ^^^ 2) * 32 + 24 + m % 4)

/-- BRIDGE_DOWN on a module: BRIDGE_FAULT when empty, the hosting tile's EXCH_FAULT, and the fault (R111, R114, R116). -/
def bridgeDown (s : State) (m : Nat) : State :=
  let (hub, nb, die, peer, num, tile) := bridgeEnd m
  let s1 := if flag s BF_VALID then s
    else setFs s [(BF_VALID, 1), (BF_HUB_SIDE, hub.toNat), (BF_NEIGHBOUR, nb.toNat), (BF_DIE, die), (BF_PEER, peer),
      (BF_MODULE, num)]
  let s2 := if hub then s1 else exchFault s1 tile 3 0 0 num
  raiseFault s2 fcBridgeDown (locWord (getF s DEV_ID) die 0 0 0 0 0)

/-- A frame is closed at the end of the step clock after its first record entered it (R109). -/
def execFrameClose (m : BitVec 7) (die : BitVec 2) (dev : BitVec 9) (s : State) : Host.Outcome State Fault Refusal :=
  .next (closeFrame s m.toNat die.toNat dev.toNat)

/-- The oldest frame under way on a module arrives, after `lost` frames that the module failed to deliver: SEQ must
advance by 1 from frame to frame; a gap raises BRIDGE_DOWN (R111). A retraining module delivers nothing. -/
def execExchangeFrame (m : BitVec 7) (lost : BitVec 8) (s : State) : Host.Outcome State Fault Refusal :=
  let n := m.toNat
  if mget s.ex.retrain false n then .next s
  else
    match (mget s.ex.frames [] n).drop lost.toNat with
    | [] => .next s
    | f :: rest =>
      let s1 := { s with ex := { s.ex with frames := mset s.ex.frames [] n rest, seqRx := mset s.ex.seqRx 0 n (f.seq + 1) } }
      if f.seq = mget s.ex.seqRx 0 n then .next (deliverFrame s1 n f) else .next (bridgeDown s1 n)

/-- A module begins a retrain; its traffic is held (R111). -/
def execBridgeRetrain (m : BitVec 7) (s : State) : Host.Outcome State Fault Refusal :=
  if m.toNat < 96 then .next { s with ex := { s.ex with retrain := mset s.ex.retrain false m.toNat true } } else .next s

/-- A retrain ends within 20 µs; the module's traffic goes on (R111). -/
def execBridgeRetrainComplete (m : BitVec 7) (s : State) : Host.Outcome State Fault Refusal :=
  .next { s with ex := { s.ex with retrain := mset s.ex.retrain false m.toNat false } }

/-- A module in retrain has failed to retrain within 20 µs (R111). -/
def execBridgeDown (m : BitVec 7) (s : State) : Host.Outcome State Fault Refusal :=
  if mget s.ex.retrain false m.toNat then .next (bridgeDown s m.toNat) else .next s

/-- The open EXCH flit for a device closes (R245). -/
def execExchFlitClose (dev : BitVec 9) (s : State) : Host.Outcome State Fault Refusal := .next (closeExch s dev.toNat)

end Sys2Proof.Machine
end

