-- ==== Sys2Proof/Machine/Links.lean ====
section
/-!
DEFINITION. The link layer (R279 to R306): training, trunk start, acknowledgement and replay, FEC, lane loss and
recovery, and PRBS testing. A receive command carries the flit that has arrived; a measured time or count is an operand.
-/
namespace Sys2Proof.Machine
open Sys2Proof Reg

/-! ## Payloads the link layer sends -/

/-- A TRAIN payload of lane `n` (R297). -/
def trainPayload (s : State) (t n : Nat) (start last : Bool) (mask : BitVec 16) : BitVec 224 :=
  let ready := decide (lsReady ≤ getF s (LANE_STATE n))
  BitVec.ofNat 224 (n + t * 2 ^ 7 + logicalOf s t n * 2 ^ 14 + getF s (FEC_REQ t) * 2 ^ 18
    + ready.toNat * 2 ^ 19 + start.toNat * 2 ^ 20 + last.toNat * 2 ^ 21 + mask.toNat * 2 ^ 22)

/-- The FILL payload of lane `n` (R292): ACK_SEQ lies behind RX_SEQ by the flits that wait for the lane's turn. -/
def fillPayload (s : State) (n : Nat) : BitVec 224 :=
  let l := laneAt s n
  let q := l.rxNext - 1
  BitVec.ofNat 224 ((q - BitVec.ofNat 8 l.held.length).toNat + q.toNat * 2 ^ 8 + l.nakDue.toNat * 2 ^ 16 + l.ackValid.toNat * 2 ^ 17)

/-- The receiver begins to discard flits, and asks for a replay in its next FILL (R293). -/
def askReplay (l : Lane) : Lane := if l.nak then l else { l with nak := true, nakDue := true }

/-- The RECOVER_REQ payload (R302). -/
def recoverPayload (mask : BitVec 16) (count : Byte) : BitVec 224 :=
  BitVec.ofNat 224 (0x01 + mask.toNat * 2 ^ 8 + count.toNat * 2 ^ 24)

/-- The RESUME payload (R302). -/
def resumePayload (delivered : BitVec 32) (set : BitVec 16) (count : Byte) : BitVec 224 :=
  BitVec.ofNat 224 (0x02 + delivered.toNat * 2 ^ 8 + set.toNat * 2 ^ 40 + count.toNat * 2 ^ 56)

/-- The CYCLE_REPORT payload (R290). -/
def cycleReport (s : State) (reset set : Bool) : BitVec 224 :=
  BitVec.ofNat 224 (0x10 + getF s CYCLE_NUM * 2 ^ 8 + reset.toNat * 2 ^ 56 + set.toNat * 2 ^ 57)

/-- A cycle report on every live trunk. -/
def reportAll (s : State) (reset set : Bool) : State := sendOnTrunks s ftCtrl (cycleReport s reset set) (liveTrunks s)

/-! ## Lane loss and recovery (R300 to R303) -/

/-- A flit has come on a lane: the receiver's line state goes on (R283). -/
def heard (s : State) (rx : Rx) : State :=
  let n := rx.lane.toNat
  let l := laneAt s n
  setLane s n { l with rx := l.rx.flit (flitWord rx.type rx.seq rx.payload) }

/-- The lanes that carry a trunk: its active lanes, or, while it recovers, those of the set under retraining. -/
def carriers (s : State) (t : Nat) : List Nat :=
  (trunkLanes s t).filter (fun n => getF s (LANE_STATE n) == lsActive
    || (getF s (LSTATE t) == tkRecovering && getF s (LANE_STATE n) == lsReady && (trunkAt s t).ownSet.contains n))

/-- A lane begins a new attempt in DETECT. -/
def enterDetect (s : State) (n : Nat) : State :=
  let l := laneAt s n
  setLane (setFs s [(LANE_STATE n, lsDetect), (SIG_DET n, 0), (SYM_LOCK n, 0), (FLIT_LOCK n, 0), (LANE_FEC_ON n, 0),
    (ALIGN_GOOD n, 0)]) n { l with cfgGood := 0, gotStart := false, gotResume := false, resends := 0, uncorr := 0,
                                   nak := false, nakDue := false, held := [] }

/-- A lane that carried traffic has failed: FAILED, and at once DETECT as a new attempt; its count of attempts starts
again (R295, R296, R301). -/
def laneDown (s : State) (n : Nat) : State := raiseEv (setF (enterDetect s n) (ATTEMPTS n) 0) (linkEv n 1)

/-- Lanes of a set await START and RESUME again. -/
def rearm (s : State) : List Nat → State
  | [] => s
  | n :: r =>
    let l := laneAt s n
    rearm (setLane (setF s (LANE_STATE n) lsReady) n { l with gotStart := false, gotResume := false }) r

/-- The same flit `k` times on a lane. -/
def sendTimes (s : State) (n : Nat) (type : Byte) (payload : BitVec 224) : Nat → State
  | 0 => s
  | k + 1 => sendTimes (sendUnseq s n type payload) n type payload k

/-- Sixteen START flits, or one LAST flit, on each lane of a set (R299 steps 2 and 5). -/
def sendStarts (s : State) (t : Nat) (last : Bool) (mask : BitVec 16) : List Nat → State
  | [] => s
  | n :: r => sendStarts (sendTimes s n ftTrain (trainPayload s t n (!last) last mask) (if last then 1 else 16)) t last mask r

/-- RECOVER: a step of R302 is taken (R390). -/
def traceRecover (s : State) (t step : Nat) : State :=
  formPacket s (srcLink t) 0x41 (leBytes 1 step ++ leBytes 4 (trunkAt s t).delivered.toNat)

/-- The trunk holds its flits and re-forms on a set of lanes: RECOVER_REQ, then START on each (R302 steps 1 to 3). -/
def beginRecover (s : State) (t : Nat) (set : List Nat) : State :=
  let x := trunkAt s t
  let mask := maskOf s t set
  let s1 := setTrunk (rearm s set) t
    { x with starting := true, ownSet := set, partnerMask := none, recoveries := x.recoveries + 1 }
  let s2 := traceRecover (traceRecover (setLstate s1 t tkRecovering) t 1) t 2
  let s3 := sendUnseqAll s2 ftCtrl (recoverPayload mask (x.recoveries + 1)) set
  sendStarts s3 t false mask set

/-- LANE_FAIL: a lane has failed for a reason, in the order of R301 from 1 (R390); 0 is none of them. -/
def traceLaneFail (s : State) (t n reason : Nat) : State :=
  if reason = 0 then s else formPacket s (srcLink t) 0x43 (leBytes 1 n ++ leBytes 1 reason)

/-- A lane that carries a trunk fails; with survivors the trunk recovers (R301, R302). -/
def failLane (s : State) (n reason : Nat) : State :=
  match trunkOfLane s n with
  | none => s
  | some t =>
    let c := carriers s t
    if c.contains n then
      let s1 := laneDown (traceLaneFail s t n reason) n
      match c.erase n with
      | [] => s1
      | a :: r => beginRecover s1 t (a :: r)
    else s

/-- Fail each of a list of lanes, with no recovery of their own. -/
def downLanes (s : State) : List Nat → State
  | [] => s
  | n :: r => downLanes (laneDown s n) r

/-- The lanes that a partner's RECOVER_REQ leaves out are traced as failed. -/
def traceLeftOut (s : State) (t : Nat) : List Nat → State
  | [] => s
  | n :: r => traceLeftOut (traceLaneFail s t n 5) t r

/-- LANE_FAIL: the receiver loses signal, or receives no good flit for 500 ns (R301). -/
def execLaneFail (lane : BitVec 7) (noFlit : Bool) (s : State) : Host.Outcome State Fault Refusal :=
  .next (failLane s lane.toNat (if noFlit then 2 else 1))

/-- A re-formation with every READY lane added (R300). -/
def reform (s : State) (t : Nat) : State :=
  let set := (trunkLanes s t).filter (fun n => getF s (LANE_STATE n) == lsActive || getF s (LANE_STATE n) == lsReady)
  if getF s (LSTATE t) = tkActive ∧ set.any (fun n => getF s (LANE_STATE n) == lsReady) then beginRecover s t set else s

/-- RECOVER_REQ: lanes it leaves out have failed, READY lanes it names join, and this end takes steps 1 and 2 too; a
request for the set already under way changes nothing (R301, R302). -/
def execRecoverReq (rx : Rx) (s0 : State) : Host.Outcome State Fault Refusal :=
  let s := heard s0 rx
  let n := rx.lane.toNat
  match trunkOfLane s n with
  | none => .next s
  | some t =>
    let c := carriers s t
    if ¬ c.contains n then .next s
    else
      let mask := BitVec.ofNat 16 (pf rx.payload 8 16)
      let named := fun m => mask.getLsbD (getF s (P_LOGICAL m))
      let out := c.filter (fun m => !named m)
      let set := (trunkLanes s t).filter (fun m => named m && (c.contains m || getF s (LANE_STATE m) == lsReady))
      if getF s (LSTATE t) = tkRecovering ∧ set = c then .next s
      else if set.isEmpty then .next (downLanes (traceLeftOut s t out) out)
      else .next (beginRecover (downLanes (traceLeftOut s t out) out) t set)

/-! ## Starting a trunk (R299) -/

/-- The READY lanes of a trunk. -/
def readyLanes (s : State) (t : Nat) : List Nat := (trunkLanes s t).filter (fun n => getF s (LANE_STATE n) == lsReady)

/-- Send START on the READY lanes. -/
def beginStart (s : State) (t : Nat) : State :=
  let set := readyLanes s t
  sendStarts (setTrunk s t { trunkAt s t with starting := true, ownSet := set }) t false (maskOf s t set) set

/-- A lane of the start set becomes ACTIVE; its sequence numbers restart at 0 (R293, R299). -/
def activateLane (s : State) (fec : Bool) (n : Nat) : State :=
  let l := laneAt s n
  setLane (setFs s [(LANE_STATE n, lsActive), (LANE_FEC_ON n, fec.toNat), (ATTEMPTS n, 0)]) n
    { l with txSeq := 0, rxNext := 0, ackValid := false, nak := false, nakDue := false, partnerRx := 255, resends := 0, uncorr := 0,
             cwNext := 0, gotStart := false, gotResume := false, held := [], tx := l.tx.restart }

def activateLanes (s : State) (fec : Bool) : List Nat → State
  | [] => s
  | n :: r => activateLanes (activateLane s fec n) fec r

/-- The lanes outside the start set go back to READY with no START received. -/
def releaseLanes (s : State) : List Nat → State
  | [] => s
  | n :: r => releaseLanes (setLane s n { laneAt s n with gotStart := false }) r

/-- A trunk enters ACTIVE from TRAINING or DOWN: its event, QUARANTINE until classified, a cycle report with SET, then
HELLO (R248, R253, R290, R309). -/
def trunkActive (s : State) (t : Nat) : State :=
  let s1 := newActiveSet (raiseEv (setLstate s t tkActive) (linkEv t 4)) t
  let s2 := if getF s1 (TS_STATE t) = tsQuarantine then s1
    else raiseEv (setF s1 (TS_STATE t) tsQuarantine) (linkEv t 5)
  sendFlit (sendFlit s2 t ftCtrl (cycleReport s2 false true)) t ftCtrl (helloPayload s2)

/-- The start set is agreed: the lanes both ends name. Empty: START is cleared. Else its lanes become ACTIVE, and with
them the trunk, or, in a recovery, RESUME is sent (R299 steps 4 to 6, R302 step 4). -/
def completeStart (s : State) (t : Nat) : State :=
  let x := trunkAt s t
  let own := (trunkLanes s t).filter (fun n => getF s (LANE_STATE n) == lsReady && x.ownSet.contains n)
  let pm := x.partnerMask.getD 0
  let set := own.filter (fun n => pm.getLsbD (getF s (P_LOGICAL n)))
  let fec := flag s (FEC_REQ t) || set.any (fun n => (laneAt s n).partnerFec)
  let s0 := releaseLanes s own
  if set.isEmpty then setTrunk s0 t { x with starting := false, ownSet := [], partnerMask := none }
  else
    let s1 := activateLanes (sendStarts s0 t true 0 set) fec set
    let s2 := setFlag s1 (TRUNK_FEC_ON t) fec
    if getF s (LSTATE t) = tkRecovering then
      let s3 := traceRecover (traceRecover
        (setTrunk s2 t { x with starting := false, ownSet := [], partnerMask := none }) t 3) t 4
      sendUnseqAll s3 ftCtrl (resumePayload x.delivered (maskOf s t set) x.recoveries) set
    else
      trunkActive (setTrunk s2 t { x with starting := false, ownSet := [], partnerMask := none, sent := [], nextIdx := 0,
                                          turnTx := 0, turnRx := 0, delivered := 0, hello := none, cpKnown := false }) t

/-- START has been received on every lane of the own set. -/
def startsIn (s : State) (t : Nat) : Bool :=
  let x := trunkAt s t
  let own := (trunkLanes s t).filter (fun n => x.ownSet.contains n)
  !own.isEmpty && own.all (fun n => (laneAt s n).gotStart)

/-- The trunk is in a state from which it starts. -/
def mayStart (s : State) (t : Nat) : Bool := getF s (LSTATE t) == tkTraining || getF s (LSTATE t) == tkDown

/-- TRUNK_START: with enough lanes and all of them READY the end begins to start; with START received on every lane of
its set, the start completes. -/
def execTrunkStart (t : BitVec 7) (s : State) : Host.Outcome State Fault Refusal :=
  let k := t.toNat
  let r := readyLanes s k
  let s1 :=
    if mayStart s k ∧ ¬ (trunkAt s k).starting ∧ getF s (MIN_LANES_M1 k) + 1 ≤ r.length ∧ r = trunkLanes s k then
      beginStart s k
    else s
  if (mayStart s1 k ∨ getF s1 (LSTATE k) = tkRecovering) ∧ (trunkAt s1 k).starting ∧ startsIn s1 k then
    .next (completeStart s1 k)
  else .next s1

/-- TRUNK_START_TIMEOUT: the wait of 1 ms for further lanes, or of 2 ms for START, has passed. -/
def execTrunkStartTimeout (t : BitVec 7) (s : State) : Host.Outcome State Fault Refusal :=
  let k := t.toNat
  if ¬ mayStart s k then .next s
  else if (trunkAt s k).starting then .next (completeStart s k)
  else if getF s (MIN_LANES_M1 k) + 1 ≤ (readyLanes s k).length then .next (beginStart s k)
  else .next s

/-- RESUME has come on every active lane: flits beyond the partner's DELIVERED are sent again, then the held ones, and
the trunk is ACTIVE again (R302 steps 4 and 5). -/
def finishRecover (s : State) (t : Nat) (delivered : Nat) (duration : Nat) : State :=
  let x := trunkAt s t
  let again := (x.sent.filter (fun f => decide ((f.idx + 2 ^ 32 - delivered) % 2 ^ 32 < 2 ^ 31))).map (fun f => f.flit)
  let s1 := setTrunk s t
    { x with queue := again ++ x.queue, sent := [], nextIdx := 0, turnTx := 0, turnRx := 0, delivered := 0 }
  let s2 := setF (addF s1 (RECOVER_COUNT t) 1) (LAST_RECOVER t) duration
  let s3 := setLstate (setF (traceRecover s2 t 5) (MAX_RECOVER t) (max (getF s2 (MAX_RECOVER t)) (duration % 2 ^ 32))) t
    tkActive
  pumpAll (newActiveSet (raiseEv s3 (linkEv t 2)) t) t

/-- RESUME received on a lane; `duration` is the time since the failure in units of 0.1 µs. -/
def execResume (rx : Rx) (duration : BitVec 32) (s0 : State) : Host.Outcome State Fault Refusal :=
  let s := heard s0 rx
  let n := rx.lane.toNat
  match trunkOfLane s n with
  | none => .next s
  | some t =>
    if getF s (LSTATE t) = tkRecovering ∧ ¬ (trunkAt s t).starting ∧ getF s (LANE_STATE n) = lsActive then
      let s1 := setLane s n { laneAt s n with gotResume := true }
      if (activeLanes s1 t).all (fun m => (laneAt s1 m).gotResume) then
        .next (finishRecover s1 t (pf rx.payload 8 32) duration.toNat)
      else .next s1
    else .next s

/-- A trunk enters DOWN (R304): its flits are discarded, EXCH flits among them counted; its lanes train again. -/
def downTrunk (s : State) (t : Nat) : State :=
  let x := trunkAt s t
  let lost := (x.sent.map (fun f => f.flit) ++ x.queue).filter (fun f => f.type == ftExch)
  let s1 := downLanes s (activeLanes s t)
  let s2 := setTrunk s1 t { x with queue := [], sent := [], starting := false, ownSet := [], partnerMask := none,
                                   hello := none, cpKnown := false }
  let s3 := addF (addF s2 (TRUNK_DISCARD t) lost.length) (LINK_DOWN_COUNT t) 1
  raiseEv (setLstate s3 t tkDown) (linkEv t 0)

/-! ## Training (R295 to R298) -/

/-- SIGNAL_DETECT: DETECT to EQ. -/
def execSignalDetect (lane : BitVec 7) (s : State) : Host.Outcome State Fault Refusal :=
  let n := lane.toNat
  if getF s (LANE_STATE n) = lsDetect then .next (setFs s [(LANE_STATE n, lsEq), (SIG_DET n, 1)]) else .next s

/-- EQ_COMPLETE: EQ to ALIGN; a lane without its reference clock never passes EQ (R531). -/
def execEqComplete (lane : BitVec 7) (s : State) : Host.Outcome State Fault Refusal :=
  let n := lane.toNat
  if getF s (LANE_STATE n) = lsEq ∧ ¬ mget s.pw.noClock false (1 + n / 16) then
    .next (setFs s [(LANE_STATE n, lsAlign), (SYM_LOCK n, 1), (ALIGN_GOOD n, 0)])
  else .next s

/-- Move the symbol offset under test; the count of good flits starts again (R298). -/
def slipLane (s : State) (n k : Nat) : State :=
  let l := laneAt s n
  setF (setLane s n { l with offset := BitVec.ofNat 7 (l.offset.toNat + k) }) (ALIGN_GOOD n) 0

/-- ALIGN_SEARCH_STEP: the automatic search steps by one symbol, and wraps after 127. -/
def execAlignSearchStep (lane : BitVec 7) (s : State) : Host.Outcome State Fault Refusal :=
  let n := lane.toNat
  if getF s (LANE_STATE n) = lsAlign ∧ ¬ flag s (ALIGN_MANUAL n) then .next (slipLane s n 1) else .next s

/-- A state of an attempt has timed out: the attempt ends in BACKOFF; the sixteenth sets NO_PARTNER and its event once
(R295, R296). -/
def endAttempt (s : State) (n : Nat) : State :=
  let s1 := setF (addF s (ATTEMPTS n) 1) (LANE_STATE n) lsBackoff
  if getF s1 (ATTEMPTS n) = 16 then raiseEv (setFlag s1 (NO_PARTNER n) true) (linkEv n 3) else s1

/-- TRAINING_TIMEOUT: in DETECT, EQ, ALIGN (not manual) or CONFIG. -/
def execTrainingTimeout (lane : BitVec 7) (s : State) : Host.Outcome State Fault Refusal :=
  let n := lane.toNat
  let st := getF s (LANE_STATE n)
  if st = lsDetect ∨ st = lsEq ∨ (st = lsAlign ∧ ¬ flag s (ALIGN_MANUAL n)) ∨ st = lsConfig then .next (endAttempt s n)
  else .next s

/-- BACKOFF_EXPIRY: the next attempt is due. -/
def execBackoffExpiry (lane : BitVec 7) (s : State) : Host.Outcome State Fault Refusal :=
  let n := lane.toNat
  if getF s (LANE_STATE n) = lsBackoff then .next (enterDetect s n) else .next s

/-- An attempt starts at once, from any state except DISABLED and TEST; an ACTIVE lane leaves its trunk first (R295). -/
def retryLane (s : State) (n : Nat) : State :=
  let st := getF s (LANE_STATE n)
  if st = lsDisabled ∨ st = lsTest then s
  else if st = lsActive then failLane s n 0
  else enterDetect s n

/-- RETRY_NOW written with 1. -/
def execRetryNow (lane : BitVec 7) (s : State) : Host.Outcome State Fault Refusal := byHost s (fun a => retryLane a lane.toNat)

/-- The partner's fields of a TRAIN payload. -/
def noteTrain (s : State) (n : Nat) (p : BitVec 224) : State :=
  setFs s [(P_LANE n, pf p 0 7), (P_TRUNK n, pf p 7 7), (P_LOGICAL n, pf p 14 4)]

/-- The lane's partner trunk differs from that of the trunk's other trained lanes (R281). -/
def miswired (s : State) (n : Nat) (p : BitVec 224) : Bool :=
  match trunkOfLane s n with
  | none => false
  | some t => (trunkLanes s t).any (fun m => m != n &&
      (getF s (LANE_STATE m) == lsReady || getF s (LANE_STATE m) == lsActive) && getF s (P_TRUNK m) != pf p 7 7)

/-- A lane reaches READY; with REJOIN_AUTO an ACTIVE trunk re-forms at once (R300). -/
def enterReady (s : State) (n : Nat) : State :=
  let s1 := setF s (LANE_STATE n) lsReady
  match trunkOfLane s1 n with
  | some t => if flag s1 (REJOIN_AUTO t) then reform s1 t else s1
  | none => s1

/-- A TRAIN flit in CONFIG: sixteen in a row with the same fields lead to READY, unless the lane is miswired. -/
def trainConfig (s : State) (n : Nat) (p : BitVec 224) : State :=
  let l := laneAt s n
  let f := BitVec.ofNat 18 (pf p 0 18)
  let k := if 0 < l.cfgGood ∧ l.cfgLast = f then l.cfgGood + 1 else 1
  let s1 := noteTrain (setLane s n { l with cfgGood := k, cfgLast := f }) n p
  if k < 16 then s1
  else if miswired s1 n p then
    if flag s1 (MISWIRED n) then s1 else raiseEv (setFlag s1 (MISWIRED n) true) (linkEv n 6)
  else enterReady s1 n

/-- A TRAIN flit with START on a READY lane gives the partner's mask and FEC_REQ, and the fields that translate the mask (R299). -/
def trainStart (s : State) (n : Nat) (p : BitVec 224) : State :=
  let s1 := noteTrain (setLane s n { laneAt s n with gotStart := true, partnerFec := bitOf p.toNat 18 }) n p
  match trunkOfLane s1 n with
  | some t => setTrunk s1 t { trunkAt s1 t with partnerMask := some (BitVec.ofNat 16 (pf p 22 16)) }
  | none => s1

/-- TRAIN received: good flits are counted in ALIGN, fields compared in CONFIG, START noted in READY. -/
def execTrain (rx : Rx) (s0 : State) : Host.Outcome State Fault Refusal :=
  let s := heard s0 rx
  let n := rx.lane.toNat
  let st := getF s (LANE_STATE n)
  if st = lsAlign then
    let s1 := addF s (ALIGN_GOOD n) 1
    if getF s1 (ALIGN_GOOD n) = 16 then
      .next (setLane (setFs s1 [(LANE_STATE n, lsConfig), (FLIT_LOCK n, 1)]) n { laneAt s1 n with cfgGood := 0 })
    else .next s1
  else if st = lsConfig then .next (trainConfig s n rx.payload)
  else if st = lsReady ∧ bitOf rx.payload.toNat 20 then .next (trainStart s n rx.payload)
  else .next s

/-! ## Receiving sequenced flits (R293, R294) -/

/-- The trunk of a lane that can take traffic now: the lane ACTIVE and its trunk ACTIVE. -/
def trafficTrunk (s : State) (n : Nat) : Option Nat :=
  match trunkOfLane s n with
  | some t => if getF s (LANE_STATE n) = lsActive ∧ getF s (LSTATE t) = tkActive then some t else none
  | none => none

/-- What becomes of a sequenced flit. -/
inductive Taken where
  | refused                         -- the lane carries no traffic
  | discarded (s : State)           -- a duplicate, or out of sequence with NAK
  | accepted (s : State) (t : Nat)  -- it waits on its lane of trunk t for the lane's turn
deriving DecidableEq, Repr

/-- A sequenced flit arrives: accepted when its SEQ is the next of its lane; a SEQ up to 128 behind is a duplicate and discarded
silently; any other sets NAK (R293). -/
def takeFlit (s0 : State) (rx : Rx) : Taken :=
  let s := heard s0 rx
  let n := rx.lane.toNat
  match trafficTrunk s n with
  | none => .refused
  | some t =>
    let l := laneAt s n
    if rx.seq = l.rxNext then
      .accepted (setLane s n { l with rxNext := l.rxNext + 1, ackValid := true, nak := false, nakDue := false, held := l.held ++ [⟨rx.type, rx.payload⟩] }) t
    else if (l.rxNext - rx.seq).toNat ≤ 128 then .discarded s
    else .discarded (setLane s n (askReplay l))

/-- The next flit of the trunk stream, if it has come: the oldest one on the lane whose turn it is (R294). -/
def nextHeld (s : State) (t : Nat) : Option (Nat × Flit) :=
  match laneInTurn s t (trunkAt s t).turnRx with
  | none => none
  | some n => (laneAt s n).held.head?.map (fun f => (n, f))

/-- The flit is taken: the turn passes on, and DELIVERED counts it. -/
def popHeld (s : State) (t n : Nat) : State :=
  let l := laneAt s n
  let x := trunkAt s t
  setTrunk (setLane s n { l with held := l.held.drop 1 }) t { x with delivered := x.delivered + 1, turnRx := logicalOf s t n + 1 }

/-- How many flits of a trunk wait for their turn. -/
def heldCount (s : State) (t : Nat) : Nat := (trunkLanes s t).foldl (fun k n => k + (laneAt s n).held.length) 0

/-- A flit fails its CRC: its symbols pass the line; stuffing errors are counted; on a lane in use the receiver asks for a replay, in
training the count of good flits starts again (R286, R287, R293, R298). -/
def execFlitCrcFail (b : LineBlock) (s0 : State) : Host.Outcome State Fault Refusal :=
  let n := b.lane.toNat
  let st := getF s0 (LANE_STATE n)
  if st < lsAlign ∨ lsBackoff ≤ st then .next s0
  else
    let x := (laneAt s0 n).rx.block (b.symbols.map BitVec.toNat)
    let s := addF (setLane s0 n { laneAt s0 n with rx := x.2.2 }) (STUFF_ERR n) x.2.1
    if flitGood (wordOfBits x.1) ∧ x.1.length = 256 then .next s
    else
      let s1 := addF s (CRC_ERR n) 1
      let l := laneAt s1 n
      if st = lsActive then .next (setLane s1 n (askReplay l))
      else .next (setLane (setF s1 (ALIGN_GOOD n) 0) n { l with cfgGood := 0 })

/-! ## Acknowledgement and replay (R292, R293) -/

/-- Take acknowledged flits of a lane out of the replay buffer: the oldest `k` of the lane. -/
def dropAcked (n : Nat) : Nat → List SentFlit → List SentFlit
  | 0, l => l
  | _, [] => []
  | k + 1, f :: r => if f.lane = n then dropAcked n k r else f :: dropAcked n (k + 1) r

/-- How many flits of a lane an ACK_SEQ covers. -/
def ackedCount (x : Trunk) (n : Nat) (ack : Byte) : Nat :=
  match x.sent.find? (fun f => f.lane == n) with
  | none => 0
  | some f => let k := (ack - f.seq).toNat; if k < unacked x n then k + 1 else 0

/-- The flits of a lane that a resend sends again: those that await acknowledgement from RX_SEQ + 1 on. -/
def resentFlits (x : Trunk) (n : Nat) (rxSeq : Byte) : List SentFlit :=
  (x.sent.filter (fun f => f.lane == n)).dropWhile (fun f => f.seq != rxSeq + 1)

/-- Flits are sent again on their lane. -/
def emitAll (s : State) : List SentFlit → State
  | [] => s
  | f :: r => emitAll (emit s f.lane f.seq f.flit) r

/-- The transmitter resends from RX_SEQ + 1: counted, and after eight without progress the lane has failed (R293). -/
def resend (s : State) (n : Nat) : State :=
  let l := laneAt s n
  let s1 := addF (setLane s n { l with resends := l.resends + 1 }) (REPLAY_COUNT n) 1
  let s2 := match trunkOfLane s1 n with
    | some t => emitAll (formPacket s1 (srcLink t) 0x42 (leBytes 1 n ++ leBytes 1 (l.partnerRx + 1).toNat))
        (resentFlits (trunkAt s1 t) n l.partnerRx)
    | none => s1
  if l.resends + 1 = 8 then failLane s2 n 4 else s2

/-- FILL received (R292). -/
def execFill (rx : Rx) (s0 : State) : Host.Outcome State Fault Refusal :=
  let s := heard s0 rx
  let n := rx.lane.toNat
  match trafficTrunk s n with
  | none => .next s
  | some t =>
    let x := trunkAt s t
    let p := rx.payload
    let k := if bitOf p.toNat 17 then ackedCount x n (BitVec.ofNat 8 (pf p 0 8)) else 0
    let l := laneAt s n
    let s1 := setTrunk s t { x with sent := dropAcked n k x.sent }
    let s2 := setLane s1 n { l with partnerRx := BitVec.ofNat 8 (pf p 8 8), resends := if k = 0 then l.resends else 0 }
    let s3 := if bitOf p.toNat 16 ∧ 0 < unacked (trunkAt s2 t) n then resend s2 n else s2
    .next (pumpAll s3 t)

/-- REPLAY_TIMEOUT: flits of the lane await acknowledgement and none has come for 4 µs. -/
def execReplayTimeout (lane : BitVec 7) (s : State) : Host.Outcome State Fault Refusal :=
  let n := lane.toNat
  match trafficTrunk s n with
  | none => .next s
  | some t => if 0 < unacked (trunkAt s t) n then .next (resend s n) else .next s

/-! ## Forward error correction (R291) -/

/-- FEC_CODEWORD: what the decoder finds in a codeword: header count, symbols corrected (`none`: it cannot be corrected), and stuffing
pairs on the way that were bad. -/
def execFecCodeword (lane : BitVec 7) (count : BitVec 12) (corrected : Option (BitVec 4)) (stuffErr : Byte) (s0 : State) :
    Host.Outcome State Fault Refusal :=
  let n := lane.toNat
  if getF s0 (LANE_STATE n) ≠ lsActive ∨ ¬ flag s0 (LANE_FEC_ON n) then .next s0
  else
    let s := addF s0 (STUFF_ERR n) stuffErr.toNat
    let l := laneAt s n
    if count ≠ l.cwNext then .next (failLane s n 3)
    else
      match corrected with
      | none =>
        let s1 := addF (setLane s n { askReplay l with cwNext := l.cwNext + 1, uncorr := l.uncorr + 1 }) (FEC_UNCORR n) 1
        .next (if l.uncorr + 1 = 4 then failLane s1 n 3 else s1)
      | some k => .next (addF (setLane s n { l with cwNext := l.cwNext + 1, uncorr := 0 }) (FEC_CORR n) k.toNat)

/-! ## Flit slots with nothing else to send (R292, R295, R299) -/

/-- A FILL flit on a lane; its NAK is said once. -/
def sendFill (s : State) (n : Nat) : State :=
  let s1 := sendUnseq s n ftFill (fillPayload s n)
  setLane s1 n { laneAt s1 n with nakDue := false }

/-- A TRAIN flit on a lane: with START and the own start set while its trunk starts with it. -/
def sendTrain (s : State) (t n : Nat) : State :=
  let x := trunkAt s t
  let start := x.starting && x.ownSet.contains n && getF s (LANE_STATE n) == lsReady
  sendUnseq s n ftTrain (trainPayload s t n start false (if start then maskOf s t x.ownSet else 0))

/-- A lane in TEST sends 256 bits of its generator's pattern, as levels alone (R305). -/
def sendPrbs (s : State) (n : Nat) : State :=
  match prbsTaps (getF s (PRBS_GEN n)) with
  | none => s
  | some taps =>
    let l := laneAt s n
    let run := prbsRun taps l.prbsSent 256
    let s1 := setLane s n { l with prbsSent := run.take 31 }
    { s1 with lnk := { s1.lnk with line := s1.lnk.line ++ [(n, levelsOf (run.take 256).reverse)] } }

/-- What a lane sends in a flit slot that nothing else has taken; one without its reference clock sends nothing (R531). -/
def laneSlot (s : State) (n : Nat) : State :=
  let st := getF s (LANE_STATE n)
  if st = lsDisabled ∨ mget s.pw.noClock false (1 + n / 16) then s
  else if st = lsTest then sendPrbs s n
  else if st = lsActive then sendFill s n
  else
    match trunkOfLane s n with
    | some t => sendTrain s t n
    | none => s

def laneSlots (s : State) : List Nat → State
  | [] => s
  | n :: r => laneSlots (laneSlot s n) r

/-! ## PRBS testing (R305, R306) -/

/-- A write of PRBS_GEN or PRBS_CHK is ignored on the last active lane of an UP trunk while the device runs (R306). -/
def prbsRefused (s : State) (n : Nat) : Bool :=
  match trunkOfLane s n with
  | some t => getF s (LANE_STATE n) == lsActive && activeLanes s t == [n] && getF s (TS_STATE t) == tsUp
      && runState s == stRunning
  | none => false

/-- A lane whose checker seeds itself anew. -/
def reseed (l : Lane) : Lane := { l with prbsLock := false, prbsSeen := [], prbsGood := 0 }

/-- Where a lane goes from TEST: to DETECT, or, with no trunk or not enabled, to DISABLED. -/
def leaveTest (s : State) (n : Nat) : State :=
  if flag s (LANE_ENABLE n) ∧ (trunkOfLane s n).isSome then enterDetect s n else setF (enterDetect s n) (LANE_STATE n) lsDisabled

/-- Set a lane's generator and checker: a non-zero code puts it in TEST, both 0 ends the test; a new code starts its generator or
checker anew (R295, R305, R306). -/
def setPrbs (s : State) (n gen chk : Nat) : State :=
  if prbsRefused s n ∧ (gen ≠ 0 ∨ chk ≠ 0) then s
  else
    let st := getF s (LANE_STATE n)
    let s0 := if (gen ≠ 0 ∨ chk ≠ 0) ∧ st = lsActive then failLane s n 6 else s
    let l0 := laneAt s0 n
    let l1 := if gen = getF s (PRBS_GEN n) then l0 else { l0 with prbsSent := bitList (Config.prbsStart n).toNat 31 }
    let l2 := if chk = getF s (PRBS_CHK n) then l1 else reseed l1
    let s1 := setLane (setFs s0 [(PRBS_GEN n, gen), (PRBS_CHK n, chk)]) n l2
    if gen ≠ 0 ∨ chk ≠ 0 then setF s1 (LANE_STATE n) lsTest
    else if st = lsTest then leaveTest s1 n
    else s1

/-- Clear a lane's PRBS counters. -/
def clearPrbs (s : State) (n : Nat) : State := if n < 96 then setFs s [(PRBS_ERR n, 0), (PRBS_BITS n, 0)] else s

/-- PRBS_CLR written with 1. -/
def execPrbsClr (lane : BitVec 7) (s : State) : Host.Outcome State Fault Refusal := byHost s (fun a => clearPrbs a lane.toNat)

/-- One bit received by a checker: while it seeds itself the bit is kept; then it is compared with the predicted one, which 64 times in a
row locks the checker; locked, the checker goes on by itself and counts (R306). -/
def prbsBit (taps : Nat × Nat) (n : Nat) (s : State) (b : Bool) : State :=
  let l := laneAt s n
  let p := prbsNext taps l.prbsSeen
  if l.prbsLock then
    setLane (addF (addF s (PRBS_BITS n) 1) (PRBS_ERR n) (b != p).toNat) n { l with prbsSeen := (p :: l.prbsSeen).take 31 }
  else if l.prbsSeen.length < taps.1 then setLane s n { l with prbsSeen := b :: l.prbsSeen }
  else
    let good := if b = p then l.prbsGood + 1 else 0
    setLane s n { l with prbsSeen := (b :: l.prbsSeen).take 31, prbsGood := good, prbsLock := decide (64 ≤ good) }

/-- PRBS_CHECKER_LOCK: bits reach a lane's checker; the 64th in a row that is free of errors locks it. -/
def execPrbsCheckerLock (b : PrbsBits) (s : State) : Host.Outcome State Fault Refusal :=
  let n := b.lane.toNat
  match prbsTaps (getF s (PRBS_CHK n)) with
  | some taps => .next (if getF s (LANE_STATE n) = lsTest then b.bits.foldl (prbsBit taps n) s else s)
  | none => .next s

/-- Count bits and errors that a locked checker has seen. -/
def countPrbs (s : State) (n bits errs : Nat) : State :=
  if (laneAt s n).prbsLock then addF (addF s (PRBS_BITS n) bits) (PRBS_ERR n) errs else s

/-- PRBS_LOCK_LOSS: more than 1,000 errors within 10,000 bits; `bits` and `errs` have passed since the last count. -/
def execPrbsLockLoss (lane : BitVec 7) (bits : BitVec 48) (errs : BitVec 48) (s : State) : Host.Outcome State Fault Refusal :=
  let n := lane.toNat
  if (laneAt s n).prbsLock then
    let s1 := countPrbs s n bits.toNat errs.toNat
    .next (setLane s1 n (reseed (laneAt s1 n)))
  else .next s

end Sys2Proof.Machine
end

