-- ==== Sys2Proof/Machine/LoadEnd.lean ====
section
/-!
DEFINITION. The staging of an image and the end of a load (R211 to R213, R222, R225, R227): where a stream byte is staged, how a
failed load ends, and when a load holds the tick.
-/
namespace Sys2Proof.Machine
open Sys2Proof Reg

/-! ## Phases (R225) -/

def lpFetch : Nat := 1
def lpVerify : Nat := 2
def lpCheck : Nat := 3
def lpWrite : Nat := 4
def lpWait : Nat := 5
def lpDone : Nat := 6
def lpFailed : Nat := 7

/-- A load is in progress. -/
def loading (s : State) : Bool := s.load.call != 0

/-- The load in progress stands in a phase. -/
def inPhase (s : State) (p : Nat) : Bool := loading s && getF s LOAD_PHASE == p

/-- The load in progress, or the last one, is PARTIAL; its partition. -/
def loadPartial (s : State) : Bool := flag s LOAD_PARTIAL
def loadPart (s : State) : Nat := getF s LOAD_PARTITION

/-! ## Staging (R211, R212) -/

/-- Lines of each staging region for a stream of `n` bytes. -/
def stageLines (n : Nat) : Nat := ceilDiv n 262144 * 1024

/-- The first line of the staging region on stack `st`. -/
def stageFirst (s : State) (st : Nat) : Nat := getF s (HBM_BASE (loadPart s) st) + s.load.lines.getD st 0

/-- The address of stream byte `o` in the HBM memory. -/
def stageAddr (s : State) (o : Nat) : Nat :=
  let st := o / 65536 % 4
  hbmAddr st (stageFirst s st * 64 + o / 262144 * 65536 + o % 65536)

/-- Stream byte `o` as staged. -/
def staged (s : State) (o : Nat) : Byte := rdByte s.hbm (stageAddr s o)

/-- Write a run of stream bytes into staging, unit by unit of 64 KiB; `o` is a multiple of 65,536. -/
def stageBytes (s : State) (o : Nat) (l : List Byte) : Nat → State
  | 0 => s
  | n + 1 =>
    let st := o / 65536 % 4
    stageBytes (dmaWrite s (loadPart s) st (stageFirst s st * 64 + o / 262144 * 65536) (l.take 65536)) (o + 65536) (l.drop 65536) n

/-- The bytes of a stream filled up with 0 to a whole line: staging is written in lines. -/
def toLines (l : List Byte) : List Byte := l ++ List.replicate ((64 - l.length % 64) % 64) 0

/-- The first staged line whose tag does not verify (R433): its stack and line. -/
def stageBad (s : State) : Option (Nat × Nat) :=
  (List.range (ceilDiv s.load.len 65536)).findSome? (fun u =>
    let first := stageFirst s (u % 4) + u / 4 * 1024
    let n := ceilDiv (min 65536 (s.load.len - u * 65536)) 64
    if rangeGood s (loadPart s) (u % 4) first n then none
    else (((List.range n).map (first + ·)).find? (fun l => !tagGood s (loadPart s) (u % 4) l)).map (fun l => (u % 4, l)))

/-- The loader writes the owner registers of the scratchpad banks 48 to 63 (R213, R485): Mule owns them; PENDING where one changes. -/
def takeBanks (s : State) : State :=
  ((List.range 16).map (48 + ·)).foldl (fun a i =>
    if getF a (SP_BANK_OWNER i) = 0 then a else setFs a [(SP_BANK_OWNER i, 0), (SP_PENDING i, 1)]) s

/-- The scratchpad banks 48 to 63 are zeroed and belong to Mule (R213). -/
def clearBanks (s : State) : State := takeBanks { s with sp := zeroBytes s.sp (48 * 262144) (16 * 262144) }

/-- Every line of the staging region of a stack is written 0; a region that does not lie in the partition's is left as it is (R211, R212). -/
def clearStack (s : State) (st : Nat) : State :=
  let n := stageLines s.load.len
  let first := stageFirst s st
  if getF s (HBM_LINES (loadPart s) st) < s.load.lines.getD st 0 + n then s
  else stampRange { s with hbm := zeroBytes s.hbm (hbmAddr st (first * 64)) (n * 64) } st first n (keyOfLine s (loadPart s) st first)

/-- Nothing staged remains (R212, R213). -/
def clearStage (s : State) : State := clearBanks ((List.range 4).foldl clearStack s)

/-! ## The end of a load (R195, R222, R227) -/

/-- A load-error record: CHECK, LDEV, DETAIL, LOCATION, and the status it goes with. -/
structure LoadErr where
  check : Nat
  ldev : Nat
  detail : Nat
  loc : Nat
  status : Nat
deriving DecidableEq, Repr

/-- The 16 bytes of a record. -/
def LoadErr.bytes (e : LoadErr) : List Byte := leBytes 2 e.check ++ leBytes 2 e.ldev ++ leBytes 4 e.detail ++ leBytes 8 e.loc

/-- The final reply of a load or unload, and its event. -/
def loadReply (s : State) (call status : Nat) (payload : List Byte) : State := raiseEv (finalReply s call status payload) evLoadDone

/-- The load in progress ends: CFG_ERR_N is asserted, the record is kept and sent. -/
def rejectLoad (s : State) (e : LoadErr) : State :=
  let s1 := setFs s [(LOAD_PHASE, lpFailed), (CFG_ERR, 1), (LOAD_ERR_0, e.check + e.ldev * 2 ^ 16 + e.detail % 2 ^ 32 * 2 ^ 32),
    (LOAD_ERR_1, e.loc)]
  loadReply { s1 with load := { Load.none with resetDue := s1.load.resetDue, unload := s1.load.unload } } s.load.call e.status e.bytes

/-- A load fails after staging has begun: nothing staged remains. -/
def failLoad (s : State) (e : LoadErr) : State := rejectLoad (clearStage s) e

/-- The loader reads what is staged: a line whose tag fails ends the load with DATA_AUTH (R434; log entry 78). -/
def readStage (s t : State) : State :=
  match stageBad s with
  | some (st, line) => failLoad (dmaAlarm s (loadPart s) st line) ⟨0, s.load.ldev, 0, 0, rsDataAuth⟩
  | none => t

/-- The record of a load that IMAGE_ABORT, a restore or a full load ends (R223, R233). -/
def abortRecord (s : State) : LoadErr := ⟨0, s.load.ldev, 0xFFFFFFFC, 0, rsBusy⟩

/-- No partition waits to enter reset. -/
def forgetReset (s : State) : State := { s with load := { s.load with resetDue := none } }

/-- A restore ends a PARTIAL load and defines the state of every partition (R233). -/
def endPartialLoad (s : State) : State :=
  if loading s ∧ loadPartial s then forgetReset (failLoad s (abortRecord s)) else s

/-! ## The tick (R229 to R231, R233) -/

/-- A load or unload has something to do at the boundary at hand: tiles that enter reset, an unload, a release, or a write
phase that has not ended at the boundary into COMMIT_CYCLE. -/
def loadHolds (s : State) : Bool :=
  s.load.resetDue.isSome || s.load.unload.isSome ||
    (loading s && loadPartial s && (!s.load.commitAt && inPhase s lpWait || s.load.commitAt && decide (s.load.commitCycle ≤ getF s CYCLE_NUM)))

end Sys2Proof.Machine
end

