-- ==== Sys2Proof/Machine/Mmp.lean ====
section
/-!
DEFINITION. Model memory ports: storage layout, requests taken, results, the write queues of a commit, and the errors
of an access (R149 to R178).
-/
namespace Sys2Proof.Machine
open Sys2Proof Reg

/-! ## Storage layout (R154 to R156) -/

/-- Storage width of a data width: the next of 1, 2, 4, 8, 16, 32, 64, 128 and 256 (R154). -/
def storageWidth (dw : Nat) : Nat :=
  match [1, 2, 4, 8, 16, 32, 64, 128].find? (fun x => decide (dw ≤ x)) with
  | some x => x
  | none => 256

/-- The data width of a port. -/
def dwidth (s : State) (t p : Nat) : Nat := getF s (MMP_DWIDTH_M1 t p) + 1

/-- The storage width of a port. -/
def swidth (s : State) (t p : Nat) : Nat := storageWidth (dwidth s t p)

/-- FIRST_BLK and NBLK_M1 of an ON_DIE port (R152). -/
def firstBlk (s : State) (t p : Nat) : Nat := bitsOf (getF s (MMP_CFG2 t p)) 0 7
def nblkM1 (s : State) (t p : Nat) : Nat := bitsOf (getF s (MMP_CFG2 t p)) 7 7

/-- The port is bound to on-die memory. -/
def onDie (s : State) (t p : Nat) : Bool := getF s (MMP_BIND t p) == 1

/-- A word address is in range: below the depth and, on die, inside the configured blocks (R153, R172). -/
def inRange (s : State) (t p addr : Nat) : Bool :=
  decide (addr ≤ getF s (MMP_DEPTH_M1 t p)) &&
    (!onDie s t p || (decide (addr / (262144 / swidth s t p) ≤ nblkM1 s t p)
      && decide (firstBlk s t p + addr / (262144 / swidth s t p) ≤ 95)))

/-- The bit of the tile's on-die memory at which word `w` begins (R155). -/
def onDieBit (s : State) (t p w : Nat) : Nat := firstBlk s t p * 262144 + w * swidth s t p

/-- The storage bytes of a FAR word (R156). -/
def farBytes (s : State) (t p : Nat) : Nat := max 1 (swidth s t p / 8)

/-- The byte of the die's stack at which FAR word `w` begins. -/
def farByte (s : State) (t p w : Nat) : Nat := getF s (MMP_CFG2 t p) * 64 + w * farBytes s t p

/-- The partition of a tile, and whether a FAR word of a port lies in that partition's region (R153). -/
def farAllowed (s : State) (t p w : Nat) : Bool := lineOfPartition s (getF s (TILE_PARTITION t)) (t / 32) (farByte s t p w / 64)

/-- The first bit of a tile's on-die memory in the memory of all tiles. -/
def tileMemBit (t : Nat) : Nat := t * 3145728 * 8

/-- The stored word of an in-range address (R155, R156). -/
def readModel (s : State) (t p w : Nat) : Nat :=
  if onDie s t p then rdBits s.eng.mem (tileMemBit t + onDieBit s t p w) (dwidth s t p)
  else rdBytes s.hbm (hbmAddr (t / 32) (farByte s t p w)) (farBytes s t p) % 2 ^ dwidth s t p

/-- The number of a FAR line among the marks of errors; the rows of on-die memory have the lower numbers. -/
def farLineKey (st line : Nat) : Nat := 2 ^ 26 + st * 2 ^ 30 + line

/-- The line of a FAR word, as a mark's number. -/
def farKey (s : State) (t p w : Nat) : Nat := farLineKey (t / 32) (farByte s t p w / 64)

/-- A FAR line is written afresh: an error in it is gone. -/
def freshLine (s : State) (k : Nat) : State := { s with eng := { s.eng with memErr := mset s.eng.memErr 0 k 0 } }

/-- Store a word; storage bits at and above the data width become 0 (R155). -/
def writeModel (s : State) (t p w v : Nat) : State :=
  let x := v % 2 ^ dwidth s t p
  if onDie s t p then
    { s with eng := { s.eng with mem := wrBits s.eng.mem (tileMemBit t + onDieBit s t p w) (swidth s t p) x } }
  else
    stampLine { freshLine s (farKey s t p w) with hbm := wrBytes s.hbm (hbmAddr (t / 32) (farByte s t p w)) (farBytes s t p) x }
      (getF s (TILE_PARTITION t)) (t / 32) (farByte s t p w / 64)

/-- The 64-bit rows of on-die memory that a word touches (R155). -/
def rowsOf (s : State) (t p w : Nat) : List Nat :=
  let b := onDieBit s t p w
  (List.range ((b + swidth s t p - 1) / 64 - b / 64 + 1)).map (fun i => t * 393216 + b / 64 + i)

/-! ## Errors (R175 to R177) -/

/-- The first error of the tile since MMP_ERR was cleared (R177), and its TILE_ERR event (R489). -/
def mmpErr (s : State) (t kind port : Nat) (a : MmpAccess) : State :=
  if flag s (ME_VALID t) then s
  else raiseEv (setFs s [(ME_VALID t, 1), (ME_KIND t, kind), (ME_PORT t, port), (ME_SEQ t, a.seq),
    (ME_WRITE t, a.write.toNat), (ME_ADDR t, a.addr.toNat)]) (tileEv t 2)

/-- The location of the MPG of an access (R176). -/
def accessLoc (s : State) (a : MmpAccess) : Nat := locOf s a.pc a.half a.bp a.step

/-- A corrected error of on-die memory is counted and its event raised (R175). -/
def countCorrected (s : State) (t : Nat) : State := raiseEv (addF s (CORR_COUNT t) 1) (tileEv t 1)

/-- A row holds a single-bit error. -/
def rowMarked (s : State) (r : Nat) : Bool := mget s.eng.memErr 0 r == 1 || mget s.eng.memErr 0 r == 3

/-- Single-bit errors found in rows are counted, and await the next commit phase (R175). -/
def foundRows (s : State) (t : Nat) : List Nat → State
  | [] => s
  | r :: rest =>
    foundRows (if rowMarked s r then countCorrected { s with eng := { s.eng with memErr := mset s.eng.memErr 0 r 3 } } t else s) t rest

/-- The rows found with a single-bit error are written back corrected (R175). -/
def writeBackRows (s : State) : State := { s with eng := { s.eng with memErr := s.eng.memErr.filter (fun e => e.2 != 3) } }

/-- What a read of a word finds: the error given, or what its rows or its line are marked with; a FAR line without a
valid tag fails after its ECC (R175, R433, R435). -/
def foundError (s : State) (t p w : Nat) (err : ReadErrorKind) : ReadErrorKind :=
  if onDie s t p then
    if (rowsOf s t p w).any (fun r => mget s.eng.memErr 0 r == 2) then .uncorrectable
    else if err = .tagFail then .none else err
  else if err = .uncorrectable ∨ mget s.eng.memErr 0 (farKey s t p w) = 2 then .uncorrectable
  else if tagGood s (getF s (TILE_PARTITION t)) (t / 32) (farByte s t p w / 64) then
    if err = .none ∧ mget s.eng.memErr 0 (farKey s t p w) = 1 then .corrected else err
  else .tagFail

/-- A failed access raises its fault, MMP_ERR and what goes with it. -/
def failAccess (s : State) (t p : Nat) (a : MmpAccess) (err : ReadErrorKind) : State :=
  match err with
  | .uncorrectable =>
    let s1 := if onDie s t p then s else addF s (HBM_UNCORR (t / 32)) 1
    raiseFaultAt (mmpErr s1 t 1 p a) a.pc fcEccUncorr (accessLoc s a)
  | .tagFail =>
    let s1 := secAlarm s alTag 0 (getF s (TILE_PARTITION t)) (t / 32) (farByte s t p a.addr.toNat / 64)
    raiseFaultAt (mmpErr s1 t 2 p a) a.pc fcMmpAuth (accessLoc s a)
  | _ => s

/-- A corrected error of an access: on die its row, in FAR data the controller's count (R175). -/
def noteCorrected (s : State) (t p w : Nat) (err : ReadErrorKind) : State :=
  if onDie s t p then
    let s1 := foundRows s t (rowsOf s t p w)
    if err = .corrected then countCorrected s1 t else s1
  else if err = .corrected then
    raiseEv (addF (if mget s.eng.memErr 0 (farKey s t p w) = 1 then freshLine s (farKey s t p w) else s) (HBM_CORR (t / 32)) 1) (evHbmCorr (t / 32))
  else s

/-- A refusal for rights of a design port (R153, R175, R434). -/
def failRights (s : State) (t p : Nat) (a : MmpAccess) : State :=
  raiseFaultAt (mmpErr (refuseRights s) t 4 p a) a.pc fcMmpAuth (accessLoc s a)

/-- A failed access: no error was found otherwise. -/
def isFailure (e : ReadErrorKind) : Bool := e == .uncorrectable || e == .tagFail

/-! ## Requests and results (R158 to R172) -/

/-- Fill a result-buffer entry. -/
def fillResult (s : State) (t p seq v : Nat) : State :=
  let m := mmpAt s t p
  setMmp s t p { m with results := m.results ++ [(seq, BitVec.ofNat 256 v)] }

/-- An access out of range: under ZERO a read fills its entry with zeros, a write leaves the write queue, and MMP_OOR
counts it; under FAULT the port raises MMP_ADDR (R172). -/
def outOfRange (s : State) (t p : Nat) (a : MmpAccess) : State :=
  if flag s (MMP_OOR_POLICY t p) then raiseFaultAt (mmpErr s t 3 p a) a.pc fcMmpAddr (accessLoc s a)
  else
    let s1 := addF s (MMP_OOR t p) 1
    if a.write then
      let m := mmpAt s1 t p
      setMmp s1 t p { m with writes := m.writes.erase a }
    else fillResult s1 t p a.seq 0

/-- A read in range is started: its result will arrive with the word as of the last commit. A FAR read takes a tag (R164). -/
def startRead (s : State) (t p : Nat) (a : MmpAccess) : State :=
  let m := mmpAt s t p
  setMmp s t p { m with flying := m.flying ++ [{ a with far := !onDie s t p }] }

/-- The port takes the request at the head of its queue (R158, R172). A FAR port waits while its stack has no free tag (R164). -/
def execMmpRequestTake (tile : BitVec 7) (port : BitVec 5) (s : State) : Host.Outcome State Fault Refusal :=
  let t := tile.toNat
  let p := port.toNat
  let m := mmpAt s t p
  match m.requests with
  | [] => .next s
  | a :: rest =>
    if ¬ flag s IN_CYCLE ∨ (¬ onDie s t p ∧ 8192 ≤ tagsUsed s (t / 32)) then .next s
    else
      let s1 := setMmp s t p { m with requests := rest }
      if ¬ inRange s t p a.addr.toNat then .next (outOfRange s1 t p a)
      else if a.write then .next s1
      else .next (startRead s1 t p a)

/-- The result of a read arrives and fills its entry, or its error acts (R159, R160, R169, R175). After the device has
stopped the result is discarded. -/
def execMmpResult (tile : BitVec 7) (port : BitVec 5) (seq : BitVec 6) (err : ReadErrorKind) (s : State) :
    Host.Outcome State Fault Refusal :=
  let t := tile.toNat
  let p := port.toNat
  let m := mmpAt s t p
  match m.flying.find? (fun a => a.seq == seq.toNat) with
  | none => .next s
  | some a =>
    let s1 := setMmp s t p { m with flying := m.flying.erase a }
    let w := a.addr.toNat
    if ¬ flag s IN_CYCLE ∨ a.dead then .next s1
    else if ¬ onDie s t p ∧ ¬ farAllowed s t p w then .next (failRights s1 t p a)
    else
      let e := foundError s1 t p w err
      if isFailure e then .next (failAccess s1 t p a e)
      else .next (fillResult (noteCorrected s1 t p w e) t p a.seq (readModel s t p w))

/-! ## The write queues (R155, R165 to R171, R176) -/

/-- A write is performed as a read-modify-write (R155, R156, R171). -/
def isRmw (s : State) (t p : Nat) : Bool := !onDie s t p || decide (swidth s t p < 64) || flag s (MMP_WMASK t p)

/-- The word a write leaves: under WMASK only enabled bits change (R171). -/
def mergedWord (s : State) (t p : Nat) (a : MmpAccess) : Nat :=
  let dw := dwidth s t p
  let d := a.data.toNat % 2 ^ dw
  if flag s (MMP_WMASK t p) then
    let mask := bitsOf a.data.toNat 128 dw
    let o := readModel s t p a.addr.toNat
    (o &&& (mask ^^^ maxOf dw)) ||| (d &&& mask)
  else d

/-- Whole rows that a write replaces lose their error marks. -/
def clearRows (s : State) : List Nat → State
  | [] => s
  | r :: rest => clearRows { s with eng := { s.eng with memErr := mset s.eng.memErr 0 r 0 } } rest

/-- Apply one write of a port's queue; an error found by its read half leaves the word as it was (R165, R176). -/
def applyWrite (s : State) (t p : Nat) (errs : List ReadError) (a : MmpAccess) : State :=
  let w := a.addr.toNat
  let given := match errs.find? (fun e => e.tile.toNat == t && e.port.toNat == p && e.seq.toNat == a.seq) with
    | some e => e.kind
    | none => .none
  if ¬ onDie s t p ∧ ¬ farAllowed s t p w then failRights s t p a
  else if isRmw s t p then
    let e := foundError s t p w given
    if isFailure e then failAccess s t p a e
    else
      let s1 := noteCorrected s t p w e
      let s2 := if onDie s t p then clearRows s1 (rowsOf s t p w) else s1
      addF (writeModel s2 t p w (mergedWord s2 t p a)) (MMP_WRITES t p) 1
  else addF (writeModel (clearRows s (rowsOf s t p w)) t p w (mergedWord s t p a)) (MMP_WRITES t p) 1

/-- Apply a port's queue in order. -/
def applyWrites (s : State) (t p : Nat) (errs : List ReadError) : List MmpAccess → State
  | [] => s
  | a :: r => applyWrites (applyWrite s t p errs a) t p errs r

/-- Action 3: the write queues of every port, by ascending tile and port (R165). -/
def applyQueues (s : State) (errs : List ReadError) : List (Nat × MmpPort) → State
  | [] => s
  | (k, m) :: r => applyQueues (applyWrites s (k / 32) (k % 32) errs m.writes) errs r

end Sys2Proof.Machine
end

