-- ==== Sys2Proof/Machine/Queues.lean ====
section
/-!
DEFINITION. Queues, check units and message ports: storage, records, host rings, delivery and pushes
(R342 to R363, R367).
-/
namespace Sys2Proof.Machine
open Sys2Proof Reg

/-! ## Records (R344) -/

/-- The record of 64 bytes that a producer wrote: RFLAGS bits [4:1] are cleared. -/
def recordOf (bits : BitVec 512) (ridx : Nat) (remote : Option (BitVec 9)) : Record :=
  let v := bits.toNat
  { dcyc := BitVec.ofNat 48 v, seq := BitVec.ofNat 32 (bitsOf v 64 32), alive := BitVec.ofNat 8 (bitsOf v 96 8),
    rflags := BitVec.ofNat 8 (bitsOf v 104 8) &&& 0xE1, check := BitVec.ofNat 64 (bitsOf v 128 64),
    user := BitVec.ofNat 64 (bitsOf v 192 64), data := BitVec.ofNat 256 (bitsOf v 256 256),
    ridx := BitVec.ofNat 32 ridx, remote := remote, entered := 0, order := 0 }

/-- The function that the DMA of a queue names as its requester (R338). -/
def fnOfQueue (s : State) (q : Nat) : Nat := fnOfPart (getF s (Q_PARTITION q))

/-- The 64 bytes of a record. -/
def recordBytes (r : Record) : List Byte :=
  leBytes 8 r.dcyc.toNat ++ leBytes 4 r.seq.toNat ++ [r.alive, r.rflags, 0, 0] ++ leBytes 8 r.check.toNat
    ++ leBytes 8 r.user.toNat ++ leBytes 32 r.data.toNat

def rfImmediate : Byte := 1
def rfLate : Byte := 2
def rfCrc : Byte := 4
def rfAlive : Byte := 8
def rfBcast : Byte := 16

/-- The delivery cycle of a record: 0 under IMMEDIATE. -/
def effDcyc (r : Record) : Nat := if r.rflags.getLsbD 0 then 0 else r.dcyc.toNat

/-! ## Queue storage (R342, R343) -/

def setQueue (s : State) (q : Nat) (x : Queue) : State := { s with qs := { s.qs with q := mset s.qs.q .empty q x } }

def inboundQ (q : Nat) : Bool := q < 16384

/-- Keep MAX_DEPTH. -/
def noteDepth (s : State) (q : Nat) : State :=
  setF s (QC_MAX_DEPTH q) (max (getF s (QC_MAX_DEPTH q)) (depthOf s q))

/-- A record enters the window of its queue. -/
def putWindow (s : State) (q : Nat) (r : Record) : State :=
  let x := queueAt s q
  setQueue s q { x with window := x.window ++ [{ r with order := x.order }], order := x.order + 1 }

/-- The line of the `i`-th record of a spill ring, oldest first, on the stack of the queue. -/
def spillLine (s : State) (q i : Nat) : Nat :=
  getF s (HBM_BASE (getF s (Q_PARTITION q)) (getF s (Q_STACK q))) + getF s (Q_BASE_LINE q) + ((queueAt s q).spillAt + i) % spillSize s q

/-- The record whose 64 bytes stand at the head of a spill ring, with what the engine keeps of it. -/
def spillRecord (s : State) (q : Nat) (m : SpillMark) : Record :=
  let bits := BitVec.ofNat 512 (leNat (plainLine s (getF s (Q_STACK q)) (spillLine s q 0)))
  { recordOf bits 0 m.remote with rflags := BitVec.ofNat 8 (bitsOf bits.toNat 104 8), ridx := m.ridx, entered := m.entered }

/-- A record enters the tail of the spill ring: a line of its partition's region, through the crypto engine of the stack (R343, R344). -/
def putSpill (s : State) (q : Nat) (r : Record) : State :=
  let x := queueAt s q
  let s1 := dmaWrite s (getF s (Q_PARTITION q)) (getF s (Q_STACK q)) (spillLine s q x.spill.length * 64) (recordBytes r)
  addF (setQueue s1 q { x with spill := x.spill ++ [⟨r.ridx, r.remote, r.entered⟩] }) (QC_SPILLED q) 1

/-- A record has left inbound queue `q`: one from another device returns a credit to its sender (R359, R360). -/
def returnCredit (s : State) (q : Nat) (remote : Option (BitVec 9)) : State :=
  match remote with
  | some src => sendMsg s src.toNat (Config.senderQueue src.toNat q).toNat 3 1
  | none => s

/-- A record has been discarded, for a reason of R390: DROPPED and its credit. -/
def noteDropped (s : State) (q : Nat) (remote : Option (BitVec 9)) (reason : Nat) : State :=
  returnCredit (traceDrop (addF s (QC_DROPPED q) 1) q reason) q remote

/-! ## Check units (R361, R362) -/

/-- One bit through a CRC register of `w` bits. -/
def crcBit (w poly reg : Nat) (b : Bool) : Nat :=
  let top := bitOf reg (w - 1)
  let sh := (reg * 2) % 2 ^ w
  if top != b then sh ^^^ (poly % 2 ^ w) else sh

/-- One byte through a CRC register: least significant bit first under REFIN. -/
def crcByte (w poly : Nat) (refin : Bool) (reg : Nat) (b : Byte) : Nat :=
  (List.range 8).foldl (fun r i => crcBit w poly r (b.getLsbD (if refin then i else 7 - i))) reg

/-- The low `w` bits in reverse order. -/
def reflect (w v : Nat) : Nat := (List.range w).foldl (fun r i => r * 2 + (bitOf v i).toNat) 0

/-- The CRC of a byte list (R361). -/
def crcBytes (w poly init xorout : Nat) (refin refout : Bool) (l : List Byte) : Nat :=
  let r := l.foldl (fun r b => crcByte w poly refin r b) (init % 2 ^ w)
  (if refout then reflect w r else r) ^^^ (xorout % 2 ^ w)

/-- The width of a check unit: values of WIDTH_M1 below 7 act as 7 (R366). -/
def unitWidth (s : State) (u : Nat) : Nat := max (getF s (U_WIDTH_M1 u)) 7 + 1

/-- The bytes a check unit covers: the message bytes, bits at and above the width forced to 0, then ALIVE. -/
def crcCover (s : State) (q : Nat) (r : Record) (alive : Byte) : List Byte :=
  let w := getF s (Q_WIDTH_M1 q) + 1
  leBytes ((w + 7) / 8) (r.data.toNat % 2 ^ w) ++ [alive]

/-- The check value of unit `u` for a record of queue `q`. -/
def checkOf (s : State) (u q : Nat) (r : Record) (alive : Byte) : Nat :=
  crcBytes (unitWidth s u) (getF s (U_POLY u)) (getF s (U_INIT u)) (getF s (U_XOROUT u)) (flag s (U_REFIN u))
    (flag s (U_REFOUT u)) (crcCover s q r alive)

/-- The unit that acts on a queue: the lowest-numbered enabled one that names it (R363). -/
def unitOf (s : State) (q : Nat) : Option Nat :=
  (List.range 64).find? (fun u => flag s (U_ENABLE u) && getF s (U_QUEUE u) == q)

/-- The ALIVE check of an inbound record (R362). -/
def aliveCheck (s : State) (u q : Nat) (r : Record) : State × Record :=
  if ¬ flag s (U_ALIVE_EN u) then (s, r)
  else
    let s1 := { setF s (U_LAST_ALIVE u) r.alive.toNat with
      qs := { s.qs with unitSeen := mset s.qs.unitSeen false u true } }
    if ¬ mget s.qs.unitSeen false u then (s1, r)
    else
      let last := BitVec.ofNat 8 (getF s (U_LAST_ALIVE u))
      if r.alive = last + 1 then (s1, r)
      else
        let f := if r.alive = last then U_ALIVE_REPEAT u else U_ALIVE_GAP u
        (raiseQueueEv (setFlag (addF s1 f 1) (Q_ALIVE_ERR q) true) q, { r with rflags := r.rflags ||| rfAlive })

/-- An inbound record passes its queue's check unit as it enters the window, or is dropped (R361, R362). -/
def checkedEnter (s : State) (q : Nat) (r : Record) : State :=
  match unitOf s q with
  | none => putWindow s q r
  | some u =>
    if checkOf s u q r r.alive = r.check.toNat % 2 ^ unitWidth s u then
      let p := aliveCheck s u q r
      putWindow p.1 q p.2
    else
      let s1 := raiseQueueEv (setFlag (addF s (U_CRC_ERR u) 1) (Q_CRC_ERR q) true) q
      if flag s (U_ACTION u) then noteDropped s1 q r.remote 4
      else
        let p := aliveCheck s1 u q { r with rflags := r.rflags ||| rfCrc }
        putWindow p.1 q p.2

/-- A record enters the window: an inbound one is checked, and waits from now on (R361, R366). -/
def enterWindow (s : State) (q : Nat) (r : Record) : State :=
  if inboundQ q then checkedEnter s q { r with entered := s.time.periods } else putWindow s q r

/-- A record enters a queue: the window while the spill ring is empty and the window has room, else the tail of the
spill ring (R343). -/
def enqueue (s : State) (q : Nat) (r : Record) : State :=
  let x := queueAt s q
  let r1 := { r with entered := s.time.periods }
  noteDepth (if x.spill.isEmpty ∧ x.window.length < 32 then enterWindow s q r1 else putSpill s q r1) q

/-- The oldest record leaves the spill ring. -/
def popSpill (s : State) (q : Nat) : State :=
  let x := queueAt s q
  setQueue s q { x with spill := x.spill.drop 1, spillAt := (x.spillAt + 1) % spillSize s q }

/-- The head of the spill ring is read: it enters the window, or with a tag that fails it is discarded, and its queue's event raised
(R343, R436). -/
def refill (s : State) (q : Nat) (m : SpillMark) (tagFail : Bool) : State :=
  let p := getF s (Q_PARTITION q)
  let st := getF s (Q_STACK q)
  let line := spillLine s q 0
  if tagFail ∨ tagGood s p st line = false then raiseQueueEv (returnCredit (addF (dmaAlarm (popSpill s q) p st line) (QC_DROPPED q) 1) q m.remote) q
  else enterWindow (popSpill s q) q (spillRecord s q m)

/-- An outbound record takes its unit's ALIVE and CHECK (R361, R362). -/
def stampCheck (s : State) (q : Nat) (r : Record) : State × Record :=
  match unitOf s q with
  | none => (s, r)
  | some u =>
    let alive := if flag s (U_ALIVE_EN u) then BitVec.ofNat 8 (getF s (U_LAST_ALIVE u) + 1) else r.alive
    let s1 := if flag s (U_ALIVE_EN u) then setF s (U_LAST_ALIVE u) alive.toNat else s
    (s1, { r with alive := alive, check := BitVec.ofNat 64 (checkOf s u q r alive) })

/-! ## Host rings (R345 to R348) -/

/-- N, the slots of the host ring. -/
def ringSlots (s : State) (q : Nat) : Nat := 2 ^ (getF s (Q_HRING_LOG2 q) + 4)

/-- A difference of free-running 32-bit counts. -/
def diff32 (a b : Nat) : Nat := (a + 2 ^ 32 - b) % 2 ^ 32

/-- The host address of slot `idx` mod N of a queue's ring. -/
def slotAddr (s : State) (q idx : Nat) : Nat := getF s (Q_HRING_ADDR q) * 4096 + (idx % ringSlots s q) * 64

/-- Records fetched or written are counted toward EV_THRESH (R366). -/
def countSignal (s : State) (q n : Nat) : State :=
  let x := queueAt s q
  let c := x.unsignalled + n
  let th := getF s (Q_EV_THRESH q)
  if th ≠ 0 ∧ th ≤ c then raiseQueueEv (setQueue s q { x with unsignalled := 0 }) q
  else setQueue s q { x with unsignalled := c }

/-- Write the progress index to WB_ADDR when 2^WB_LOG2 records have passed since the last one, or at the end of the
work at hand (R346, R347). -/
def writeBack (s : State) (q idx : Nat) (last : Bool) : State :=
  let x := queueAt s q
  if 2 ^ getF s (Q_WB_LOG2 q) ≤ diff32 idx x.wbLast ∨ last then
    hostWrite (setQueue s q { x with wbLast := idx }) (fnOfQueue s q) (getF s (Q_WB_ADDR q) * 8) 4 idx
  else s

/-- One fetched record: it is checked, it enters the queue, FETCHED advances (R346). -/
def fetchOne (s : State) (q : Nat) (bits : BitVec 512) : State :=
  let f := getF s (Q_CONS_FETCHED q)
  let s1 := enqueue (hostAsk s (fnOfQueue s q)) q (recordOf bits f none)
  let f1 := (f + 1) % 2 ^ 32
  let s2 := countSignal (setF s1 (Q_CONS_FETCHED q) f1) q 1
  writeBack s2 q f1 (f1 == getF s2 (Q_PROD q))

/-- Fetched records are taken while FETCHED differs from PROD and the queue is below CAP (R346). -/
def fetchAll (s : State) (q : Nat) : List (BitVec 512) → State
  | [] => s
  | b :: r =>
    if getF s (Q_CONS_FETCHED q) ≠ getF s (Q_PROD q) ∧ roomIn s q then fetchAll (fetchOne s q b) q r else s

/-- A record has left a queue: its counters (R366). -/
def noteLeft (s : State) (q : Nat) (r : Record) : State :=
  let wait := 2 * (s.time.periods - r.entered)
  let s1 := addF (addF s (QC_RECORDS q) 1) (QC_WAIT_NS_SUM q) wait
  setF s1 (QC_MAX_WAIT_NS q) (max (getF s1 (QC_MAX_WAIT_NS q)) (min wait (maxOf 32)))

/-- The oldest record of a queue. -/
def headOf (s : State) (q : Nat) : Option Record := (queueAt s q).window.head?

/-- The oldest record leaves the window. -/
def popHead (s : State) (q : Nat) : State :=
  let x := queueAt s q
  setQueue s q { x with window := x.window.drop 1 }

/-- Write one record into the host ring of queue `ring` and advance PROD (R347). -/
def writeHostRecord (s : State) (ring : Nat) (r : Record) (more : Bool) : State :=
  let p := getF s (Q_PROD ring)
  let p1 := (p + 1) % 2 ^ 32
  let s1 := hostWriteList s (fnOfQueue s ring) (slotAddr s ring p) (recordBytes r)
  let s2 := countSignal (traceQueue (setF s1 (Q_PROD ring) p1) ring 0x33 (leBytes 2 ring ++ leBytes 4 p1)) ring 1
  writeBack s2 ring p1 (!more)

/-- The host ring of an outbound queue has room (R347). -/
def hostRoom (s : State) (q : Nat) : Bool :=
  decide (diff32 (getF s (Q_PROD q)) (getF s (Q_CONS_FETCHED q)) < ringSlots s q)

/-! ## Flows (R358) -/

/-- The member queues of a flow, of those that exist. -/
def members (s : State) (f : Nat) : List Nat :=
  ((List.range (getF s (F_COUNT_M1 f) + 1)).map (fun i => getF s (F_QBASE f) + i)).filter (fun q => decide (q < 32768))

/-- The enabled flow that a queue belongs to. -/
def flowOf (s : State) (q : Nat) : Option Nat :=
  (List.range 512).find? (fun f => flag s (F_ENABLE f) && decide (getF s (F_QBASE f) ≤ q)
    && decide (q ≤ getF s (F_QBASE f) + getF s (F_COUNT_M1 f)))

/-- The flow sequence number of a record. -/
def flowSeq (r : Record) : Nat := r.data.toNat % 65536

/-- Drop the heads of a member that lie behind NEXT, at most `n` of them. -/
def dropBehind (s : State) (f q : Nat) : Nat → State
  | 0 => s
  | n + 1 =>
    match headOf s q with
    | none => s
    | some r =>
      if 32768 ≤ (flowSeq r + 65536 - getF s (F_NEXT f)) % 65536 then
        dropBehind (traceDrop (addF (addF (popHead s q) (F_DUP f) 1) (QC_DROPPED q) 1) q 2) f q n
      else s

/-! ## Delivery to message ports (R349 to R352, R356) -/

/-- The queues bound to an inbound port. -/
def portQueues (s : State) (i : Nat) : List Nat :=
  (List.range (getF s (P_QCOUNT_M1 i) + 1)).map (fun k => getF s (P_QBASE i) + k)

/-- A partition's delivery log: entries of the ring, 0 for no log (R356, R366). -/
def dlogSize (s : State) (p : Nat) : Nat :=
  let l := getF s (DLOG_LOG2 p)
  if l = 0 then 0 else 2 ^ min (max l 10) 26

/-- The log holds no free entry, so nothing is staged for the partition's ports. -/
def dlogFull (s : State) (p : Nat) : Bool :=
  decide (dlogSize s p ≠ 0) && decide (dlogSize s p ≤ getF s (DLOG_PROD p) - getF s (DLOG_CONS p))

/-- Record `a` of queue `qa` is a better choice than `b` of `qb`: lower DCYC, then earlier entry into its window, then
lower queue (R350). Entry is compared by the period of the time clock, then within a queue by order; a BROADCAST record stands ahead of
every other (R354). -/
def betterRec (qa : Nat) (a : Record) (qb : Nat) (b : Record) : Bool :=
  let ka := (effDcyc a, if a.rflags.getLsbD 4 then 0 else a.entered + 1)
  let kb := (effDcyc b, if b.rflags.getLsbD 4 then 0 else b.entered + 1)
  if ka.1 ≠ kb.1 then decide (ka.1 < kb.1)
  else if ka.2 ≠ kb.2 then decide (ka.2 < kb.2)
  else if qa ≠ qb then decide (qa < qb)
  else decide (a.order < b.order)

/-- The better of two choices. -/
def pickBetter (x y : Option (Nat × Record)) : Option (Nat × Record) :=
  match x, y with
  | none, y => y
  | x, none => x
  | some (qa, a), some (qb, b) => if betterRec qb b qa a then some (qb, b) else some (qa, a)

/-- The best eligible record of port `i` for cycle `n` (R350). -/
def bestFor (s : State) (i n : Nat) : Option (Nat × Record) :=
  (portQueues s i).foldl (fun acc q =>
    if dlogFull s (getF s (Q_PARTITION q)) then acc
    else (queueAt s q).window.foldl (fun acc r => if effDcyc r ≤ n then pickBetter acc (some (q, r)) else acc) acc) none

/-- Take a record out of its window. -/
def removeRec (s : State) (q : Nat) (r : Record) : State :=
  let x := queueAt s q
  setQueue s q { x with window := x.window.erase r }

/-- The 16 bytes of a delivery-log entry. -/
def logBytes (n q : Nat) (r : Record) : List Byte :=
  leBytes 8 n ++ leBytes 2 (q % 16384 + (r.rflags.getLsbD 4).toNat * 16384 + r.remote.isSome.toNat * 32768) ++ [0, 0] ++ leBytes 4 r.ridx.toNat

/-- Write entries of partition `p` into its log, from index `k` on. -/
def logWrite (s : State) (p k : Nat) : List LogEntry → State
  | [] => s
  | e :: rest =>
    let st := getF s (DLOG_STACK p)
    logWrite (dmaWrite s p st ((getF s (HBM_BASE p st) + getF s (DLOG_BASE_LINE p)) * 64 + k % dlogSize s p * 16) e.bytes) p (k + 1) rest

/-- A delivery-log entry for port `i`: the entries of a cycle stand in ascending port number, so one that comes after those of higher
ports, for a BROADCAST, takes its place before them (R356). -/
def logDelivery (s : State) (i n q : Nat) (r : Record) : State :=
  let p := getF s (Q_PARTITION q)
  if dlogSize s p = 0 then s
  else
    let old := s.qs.logged.filter (fun e => e.part == p && e.cycle == n)
    let low := old.filter (fun e => decide (e.port < i))
    let new := ⟨p, n, i, logBytes n q r⟩ :: old.filter (fun e => decide (i ≤ e.port))
    let keep := s.qs.logged.filter (fun e => e.part != p)
    let s1 := logWrite s p (getF s (DLOG_PROD p) - (new.length - 1)) new
    setF { s1 with qs := { s1.qs with logged := keep ++ low ++ new } } (DLOG_PROD p) (getF s (DLOG_PROD p) + 1)

/-- The staged record becomes the current message of cycle `n` (R351). -/
def makeCurrent (s : State) (i n : Nat) (q : Nat) (r : Record) : State :=
  let late := decide (effDcyc r < n)
  let r1 := if late then { r with rflags := r.rflags ||| rfLate } else r
  let s1 := removeRec s q r
  let s2 := setMsg s1 i { msgAt s1 i with cur := some (q, r1), staged := none }
  let s2' := traceQueue s2 q 0x31 (leBytes 2 i ++ leBytes 2 q ++ leBytes 6 n ++ leBytes 1 late.toNat)
  let s3 := returnCredit (noteLeft (logDelivery s2' i n q r1) q r) q r.remote
  let s4 := if late then setFlag s3 (Q_LATE q) true else s3
  if late ∧ flag s4 (Q_LATE_EV q) then raiseQueueEv s4 q else s4

/-- Action 7 for an inbound port: a requested pop discards the current message; without a current message the staged
record becomes the current message of cycle `n` (R70, R351). -/
def deliverPort (s : State) (i n : Nat) : State :=
  let m := msgAt s i
  let s1 :=
    if m.pop then
      if m.cur.isSome then addF (setMsg s i { m with cur := none, pop := false }) (P_POPS i) 1
      else setMsg s i { m with pop := false }
    else s
  match (msgAt s1 i).cur, (msgAt s1 i).staged with
  | none, some (q, r) => makeCurrent s1 i n q r
  | _, _ => s1

/-! ## BROADCAST and CLEAR_QUEUES (R354, R355) -/

/-- A queue cannot accept a BROADCAST (R354). -/
def broadcastRefused (s : State) (q : Nat) : Bool :=
  !flag s (Q_ENABLE q) || !inboundQ q || decide (32 ≤ (queueAt s q).window.length)
    || (decide (0 < spillSize s q) && decide (spillSize s q ≤ (queueAt s q).spill.length))

/-- The record a BROADCAST writes. -/
def broadcastRecord (cycle data ridx : Nat) : Record :=
  { dcyc := BitVec.ofNat 48 cycle, seq := 0, alive := 0, rflags := rfBcast, check := 0, user := 0,
    data := BitVec.ofNat 256 (data % 2 ^ 64), ridx := BitVec.ofNat 32 ridx, remote := none, entered := 0, order := 0 }

/-- Inbound ports bound to a queue. -/
def portsOfQueue (s : State) (q : Nat) : List Nat :=
  (List.range 2048).filter (fun i => flag s (P_BOUND i) && !flag s (P_DIR i) && (portQueues s i).contains q)

/-- A port with no current message selects again for cycle `n`. -/
def selectAgain (s : State) (n : Nat) : List Nat → State
  | [] => s
  | i :: r =>
    let s1 :=
      if (msgAt s i).cur.isSome then s
      else
        match bestFor s i n with
        | some (q, rec) => makeCurrent s i n q rec
        | none => s
    selectAgain s1 n r

/-- BROADCAST at the boundary into a cycle: the record enters the window ahead of every other, and the queue's port
selects again (R354). -/
def broadcastInto (s : State) (q cycle data : Nat) : State :=
  let x := queueAt s q
  let r := { broadcastRecord cycle data x.arrivals with entered := s.time.periods, order := x.order }
  let s1 := setQueue s q { x with window := r :: x.window, order := x.order + 1, arrivals := x.arrivals + 1 }
  selectAgain (noteDepth s1 q) cycle (portsOfQueue s q)

/-- Count and return the credits of records that are discarded. -/
def dropRecords (s : State) (q : Nat) : List (Option (BitVec 9)) → State
  | [] => s
  | r :: rest => dropRecords (noteDropped s q r 1) q rest

/-- Empty inbound queues. -/
def emptyQueues (s : State) : List Nat → State
  | [] => s
  | q :: rest =>
    let x := queueAt s q
    emptyQueues (dropRecords (setQueue s q { x with window := [], spill := [] }) q
      (x.window.map (fun r => r.remote) ++ x.spill.map (fun m => m.remote))) rest

/-- Clear a message port: its current message is discarded and counted, the outbound buffer cleared. -/
def clearPorts (s : State) : List (Nat × MsgPort) → State
  | [] => s
  | (i, m) :: rest =>
    let s1 := match m.cur with
      | some (q, _) => traceDrop (addF s (QC_DROPPED q) 1) q 1
      | none => s
    clearPorts (setMsg s1 i { m with cur := none, staged := none, out := 0 }) rest

/-- CLEAR_QUEUES of a RESET_AT (R355). -/
def clearQueues (s : State) : State :=
  clearPorts (emptyQueues s ((s.qs.q.map Prod.fst).filter inboundQ)) s.eng.msg

/-! ## Pushes (R353) -/

/-- The record of a push in cycle `n` (R344, R358). -/
def pushRecord (s : State) (i q n : Nat) : Record :=
  let m := msgAt s i
  let w := getF s (Q_WIDTH_M1 q) + 1
  let d := m.out.toNat % 2 ^ w
  let sq := if (flowOf s q).isSome then d % 65536 else (queueAt s q).pushes % 2 ^ 32
  { dcyc := BitVec.ofNat 48 n, seq := BitVec.ofNat 32 sq, alive := 0, rflags := 0, check := 0, user := 0,
    data := BitVec.ofNat 256 d, ridx := 0, remote := none, entered := 0, order := 0 }

/-- Perform the push of an outbound port: the record enters the queue and the message buffer clears (R69, R353). -/
def doPush (s : State) (i n : Nat) : State :=
  let q := getF s (P_QBASE i)
  let p := stampCheck s q (pushRecord s i q n)
  let s1 := enqueue p.1 q p.2
  let x := queueAt s1 q
  let s2 := setQueue s1 q { x with pushes := x.pushes + 1 }
  let s3 := traceQueue s2 q 0x32 (leBytes 2 q ++ leBytes 6 n)
  addF (setMsg s3 i { msgAt s3 i with out := 0, push := false }) (P_PUSHES i) 1

/-- Action 7 for an outbound port with a push: performed with the full flag 0; refused under REFUSE; under HOLD the
port waits for room (R353). The answer says whether it waits. -/
def pushPort (s : State) (i n : Nat) : State × Bool :=
  let m := msgAt s i
  if ¬ m.push then (s, false)
  else if ¬ flag s (P_DIR i) then (setMsg s i { m with push := false }, false)
  else if ¬ flag s (P_FULL i) then (doPush s i n, false)
  else if ¬ flag s (P_POLICY i) then (addF (setMsg s i { m with push := false }) (P_PUSH_REFUSED i) 1, false)
  else if roomIn s (getF s (P_QBASE i)) then (doPush s i n, false)
  else (s, true)

end Sys2Proof.Machine
end

