-- ==== Sys2Proof/Machine/System.lean ====
section
/-!
DEFINITION. The system layer (R240 to R278): trunk classification, cycle reports, agreement rounds, global operations,
stops that start on one device, loss of a device, snapshots and restore.
-/
namespace Sys2Proof.Machine
open Sys2Proof Reg

/-- The device stands at a boundary: between the end of a commit phase and the next tick. -/
def atBoundary (s : State) : Bool := !flag s IN_CYCLE && !flag s IN_COMMIT

/-- A trunk named by a valid DEV_ROUTE entry is not UP (R252, R260). -/
def trunkMissing (s : State) : Bool :=
  (List.range 512).any (fun d => flag s (DR_VALID d) && d != getF s DEV_ID
    && (decide (96 ≤ getF s (DR_TRUNK d)) || getF s (TS_STATE (getF s (DR_TRUNK d))) != tsUp))

/-- A partition holds an image. -/
def hasImage (s : State) (p : Nat) : Bool := (mget s.sys.linkLevel none p).isSome

/-- The partitions that hold an image. -/
def imageParts (s : State) : List Nat := (List.range 16).filter (hasImage s)

/-- IMAGE_ID of a partition. -/
def imageId (s : State) (p : Nat) : Nat := getF s (IMAGE_ID_LO p) + 2 ^ 64 * getF s (IMAGE_ID_HI p)

/-! ## Stops (R142, R263) -/

/-- The device stops at this boundary: cause, run state STOPPED, the stop event, the answer to STOP (R142, R466). -/
def stopDevice (s : State) (cause : Nat) : State :=
  answerStops (raiseEv (setRunState (setF s STOP_CAUSE cause) stStopped) evStop)

/-! ## Loss of a partner (R266, R267) -/

/-- EFFECT_CYCLE of an operation that aborts (R277). -/
def noEffect : Nat := 0xFFFFFFFFFFFF

/-- The final reply of an operation on its originator (R277). -/
def replyGop (s : State) (g : Gop) (status effect : Nat) : State :=
  if g.call = 0 then s else finalReply s g.call status (leBytes 8 effect)

/-- An operation ends without effect: its slot shows ABORTED, and its originator replies TIMEOUT (R259). -/
def abortOp (s : State) (g : Gop) : State :=
  let g1 := { g with state := 3, aborted := true }
  replyGop { s with sys := { s.sys with ops := s.sys.ops.map (fun h => if h = g then g1 else h) } } g rsTimeout noEffect

def abortOps (s : State) : List Gop → State
  | [] => s
  | g :: r => abortOps (abortOp s g) r

/-- An operation is the subject of an agreement in progress. -/
def inAgreement (s : State) (g : Gop) : Bool :=
  g.state == 2 && s.sys.agreements.any (fun a =>
    (a.kind == .cycleOps && (!g.byTime || g.agreed) && g.cycle == a.cycle)
      || (a.kind == .timeOp && g.byTime && !g.agreed && g.origin == a.origin && g.seq == a.seq))

/-- An agreement in progress ends, and its operation is not applied (R267). -/
def endAgreements (s : State) : State :=
  abortOps { s with sys := { s.sys with agreements := [], stop := none, syncs := [] } } (s.sys.ops.filter (inAgreement s))

/-- Snapshots being written are marked INVALID (R273). -/
def invalidateWriting (s : State) : State :=
  { s with sys := { s.sys with
      snap := s.sys.snap.map (fun e =>
        (e.1, if e.2.writing ∧ ¬ e.2.importing then { e.2 with invalid := true, valid := false } else e.2)) } }

/-- The device freezes at the last boundary it has reached: a cycle in progress is abandoned, a commit phase completes;
`origin` saw the loss (R266, R267). -/
def freezeHere (s : State) (origin : Nat) : State :=
  let n := getF s CYCLE_NUM + (flag s IN_COMMIT).toNat
  let s1 := if flag s IN_COMMIT then s else abandonCycle s
  let s2 := setFs s1 [(STOP_CAUSE, 9), (SYS_STOP_ORIGIN, origin), (SYS_STOP_CAUSE, 3), (SYS_STOP_CYCLE, n)]
  let s3 := raiseEv (answerStops (setRunState s2 stFrozen)) evFreeze
  invalidateWriting (endAgreements s3)

/-- Loss of the partner of trunk `t`, which was UP: a running device freezes and says so; on any other an agreement in progress ends
(R266, R267). -/
def losePartner (s : State) (t : Nat) : State :=
  if runState s ≠ stRunning then endAgreements s
  else
    let n := getF s CYCLE_NUM + (flag s IN_COMMIT).toNat
    freezeNotice (freezeHere s (getF s DEV_ID)) t n

/-! ## Classification of trunks (R250, R251, R269) -/

/-- A trunk's system state changes (R278, R309). -/
def setTrunkState (s : State) (t st reason : Nat) : State :=
  let s1 := setF s (TS_REASON t) reason
  if getF s (TS_STATE t) = st then s1 else raiseEv (traceTrunk (setF s1 (TS_STATE t) st) t) (linkEv t 5)

/-- Two cycle numbers differ by more than SKEW_LIMIT. -/
def skewed (s : State) (a b : Nat) : Bool :=
  decide (getF s SKEW_LIMIT < a - b) || decide (getF s SKEW_LIMIT < b - a)

/-- State and reason of a trunk after the HELLO exchange: the first row of R250 that applies. -/
def classOf (s : State) (t fw image : Nat) : Nat × Nat :=
  if getF s (TS_PARTNER_DEV t) = getF s DEV_ID then (tsQuarantine, 3)
  else if getF s SYS_EPOCH = 0 ∨ getF s (TS_PARTNER_EPOCH t) = 0 ∨ getF s SYS_EPOCH ≠ getF s (TS_PARTNER_EPOCH t) then
    (tsQuarantine, 1)
  else if image ≠ s.sys.deviceImage.toNat then (tsQuarantine, 2)
  else if s.sys.linkLevel.any (fun e => decide (fw < e.2.getD 0)) then (tsQuarantine, 5)
  else if skewed s (getF s (TS_PARTNER_CYCLE t)) (getF s CYCLE_NUM) then (tsQuarantine, 4)
  else (tsUp, 0)

/-- Classify a trunk whose partner has said HELLO; leaving UP while the device runs is the loss of its partner. -/
def classify (s : State) (t : Nat) : State :=
  match (trunkAt s t).hello with
  | none => s
  | some (fw, _, _, image) =>
    if getF s (LSTATE t) ≠ tkActive ∧ getF s (LSTATE t) ≠ tkRecovering then s
    else
      let c := classOf s t fw.toNat image.toNat
      let was := getF s (TS_STATE t)
      let s1 := setTrunkState s t c.1 c.2
      if was = tsUp ∧ c.1 ≠ tsUp then losePartner s1 t else pumpAll s1 t

def classifyAll (s : State) : List Nat → State
  | [] => s
  | t :: r => classifyAll (classify s t) r

/-- SYS_LEVEL: the lowest of the own FW_LEVEL and of every partner's SYS_LEVEL on a trunk UP or in QUARANTINE; a change
sends a fresh HELLO (R269). -/
def updateLevel (s : State) : State :=
  let ts := (List.range 96).filter (fun t => getF s (TS_STATE t) == tsUp || getF s (TS_STATE t) == tsQuarantine)
  let v := ts.foldl (fun m t => match (trunkAt s t).hello with
    | some (_, lv, _, _) => min m lv.toNat
    | none => m) (getF s FW_LEVEL)
  if v = getF s SYS_LEVEL then s else helloAll (setF s SYS_LEVEL v)

/-- A value of HELLO other than the run state has changed on this device: HELLO again, and every trunk anew. -/
def identityChanged (s : State) : State := classifyAll (updateLevel (helloAll s)) (liveTrunks s)

/-- HELLO received: the partner's values are kept and the trunk is classified (R248, R250, R269). -/
def onHello (s0 : State) (t : Nat) (p : BitVec 224) : State :=
  let s1 := traceSys s0 t 1 p
  let fw := pf p 17 8
  let h := (BitVec.ofNat 8 fw, BitVec.ofNat 8 (pf p 25 8), BitVec.ofNat 3 (pf p 33 3), BitVec.ofNat 128 (pf p 68 128))
  let s2 := setTrunk s1 t { trunkAt s1 t with hello := some h }
  let s3 := setFs s2 [(TS_PARTNER_DEV t, pf p 8 9), (TS_PARTNER_EPOCH t, pf p 36 32),
    (TS_LINK_LEVEL t, min fw (getF s2 FW_LEVEL))]
  classify (updateLevel s3) t

/-- CYCLE_REPORT received: with SET it becomes c_p; on an UP trunk without SET it must be c_p + 1, or the 0 of a
RESET_AT; anything else is QUARANTINE and the loss of the partner (R253, R290). -/
def onCycleReport (s : State) (t : Nat) (p : BitVec 224) : State :=
  let c := pf p 8 48
  let s1 := setF (setTrunk s t { trunkAt s t with cpKnown := true }) (TS_PARTNER_CYCLE t) c
  if bitOf p.toNat 57 ∨ getF s (TS_STATE t) ≠ tsUp then s1
  else if c = getF s (TS_PARTNER_CYCLE t) + 1 ∨ (bitOf p.toNat 56 ∧ c = 0) then s1
  else losePartner (setTrunkState s t tsQuarantine 4) t

/-! ## EXCH flits received (R242, R246, R273) -/

/-- The records of an EXCH payload. -/
def exchRecords (p : BitVec 224) : List XRec :=
  (List.range (pf p 19 3 + 1)).map (fun i => exchRec (pf p 31 9) (pf p 7 8) (pf p (40 + 23 * i) 23))

/-- Mark the slot of a snapshot taken at the boundary at hand INVALID, for every partition that holds an image (R242, R273). -/
def invalidateSnap (s : State) : State :=
  match s.sys.snapOpen with
  | none => s
  | some (slot, _) =>
    { s with sys := { s.sys with
        snap := s.sys.snap.map (fun e =>
          (e.1, if e.1 % 4 = slot ∧ hasImage s (e.1 / 4) ∧ (e.2.writing ∨ e.2.valid) then { e.2 with valid := false, invalid := true } else e.2)) } }

/-- A flit that arrived at a snapshot's boundary was sent in a cycle before C: its slot becomes INVALID (R273). -/
def checkSnapCycle (s : State) (cyc : Nat) : State :=
  match s.sys.snapOpen with
  | some (_, c) => if 1 ≤ (c + 256 - cyc) % 256 ∧ (c + 256 - cyc) % 256 ≤ 128 then invalidateSnap s else s
  | none => s

/-- The hop count exceeds DIAMETER: counted, and the frame goes on (R242). -/
def checkHops (s : State) (hops : Nat) : State :=
  if getF s DIAMETER < hops then invalidateSnap (raiseEv (addF s HOP_EXCEED 1) evHopExceed) else s

/-- Forward an EXCH flit with HOPS one higher, or find no path (R241, R246). -/
def forwardExch (s : State) (p : BitVec 224) : State :=
  let hops := pf p 15 4
  let p1 := BitVec.ofNat 224 (p.toNat - hops * 2 ^ 15 + min (hops + 1) 15 * 2 ^ 15)
  match routeOfDev s (pf p 31 9) with
  | some t => sendFlit s t ftExch p1
  | none => switchUnbound s

/-- EXCH received on an UP trunk: unpacked toward the compute dies, or forwarded; another trunk carries none (R251). -/
def onExch (s : State) (t : Nat) (p : BitVec 224) : State :=
  if getF s (TS_STATE t) ≠ tsUp then s
  else
    let s1 := checkHops (checkSnapCycle s (pf p 7 8)) (pf p 15 4 + 1)
    if pf p 31 9 = getF s1 DEV_ID then hubRecords s1 (exchRecords p) else forwardExch s1 p

/-! ## Snapshots (R271 to R274) -/

/-- The FAR regions of loaded tiles: first byte and length in the HBM memory. -/
def farRanges (s : State) : List (Nat × Nat) :=
  ((List.range 128).filter (fun t => flag s (TILE_LOADED t))).flatMap (fun t =>
    ((List.range 32).filter (fun p => getF s (MMP_BIND t p) == 2)).map (fun p =>
      (hbmAddr (t / 32) (farByte s t p 0), (getF s (MMP_DEPTH_M1 t p) + 1) * farBytes s t p)))

/-- The lines of the spill-ring entries in use of inbound queues. -/
def spillRanges (s : State) (l : Map Queue) : List (Nat × Nat) :=
  (l.filter (fun e => inboundQ e.1)).flatMap (fun e =>
    (List.range e.2.spill.length).map (fun i => (hbmAddr (getF s (Q_STACK e.1)) (spillLine s e.1 i * 64), 64)))

/-- An address lies in one of a list of ranges. -/
def inRanges (l : List (Nat × Nat)) (a : Nat) : Bool := l.any (fun r => decide (r.1 ≤ a) && decide (a < r.1 + r.2))

/-- The registers a snapshot holds: RUN_COUNT, SKEW_LIMIT and the PACED settings (R272). -/
def snapFields : List Field := [RUN_COUNT, SKEW_LIMIT, PACE_T0_NS, PACE_T0_SEC, PACE_PERIOD_NS, PACE_PERIOD_FRAC]

/-- The state at the start of the cycle at hand (R272): of HBM, the FAR regions and the spill-ring entries in use. -/
def capture (s : State) : Snapshot :=
  let far := farRanges s ++ spillRanges s s.qs.q
  { cycle := getF s CYCLE_NUM, epoch := getF s SYS_EPOCH, deviceImage := s.sys.deviceImage,
    images := (imageParts s).map (fun p => (p, imageId s p, getF s (MAP_ID p))),
    cur := s.eng.cur, slot := s.eng.slot, recv := s.eng.recv, credit := s.eng.credit, detached := s.eng.detached,
    substitute := s.eng.substitute, mem := s.eng.mem, hbm := s.hbm.filter (fun c => inRanges far c.1),
    msgs := s.eng.msg, queues := s.qs.q.filter (fun e => inboundQ e.1),
    lent := (s.qs.q.filter (fun e => !inboundQ e.1)).map (fun e => (e.1, e.2.lent)), asm := s.qs.asm, tout := s.cyc.tout,
    forced := s.ctl.forced.filter (fun f => !f.armed), settings := snapFields.map (fun f => (f.key, getF s f)),
    sched := s.cyc.sched }

/-- The key of a partition's snapshot slot. -/
def snapKey (p slot : Nat) : Nat := p * 4 + slot

def snapAt (s : State) (p slot : Nat) : SnapSlot := mget s.sys.snap .empty (snapKey p slot)

def setSnap (s : State) (p slot : Nat) (x : SnapSlot) : State :=
  { s with sys := { s.sys with snap := mset s.sys.snap .empty (snapKey p slot) x } }

/-- Lines of a stack's part of a slot, and the first of them. -/
def partLines (s : State) (p slot st : Nat) : Nat := (((snapAt s p slot).areas).getD st (0, 0)).2
def partFirst (s : State) (p slot st : Nat) : Nat := getF s (HBM_BASE p st) + (((snapAt s p slot).areas).getD st (0, 0)).1

/-- Number of an imported copy, and line `i` of one: 64 bytes of ciphertext and the tag (R445). -/
def copyKey (p slot st : Nat) : Nat := (p * 4 + slot) * 4 + st
def copyLine (copy : List Byte) (i : Nat) : List Byte := (copy.drop (72 * i)).take 72

/-- The imported copies of a partition's slot are written over. -/
def dropCopies (s : State) (p slot : Nat) : State :=
  { s with sec := { s.sec with copies := mdrop s.sec.copies (fun k => k / 4 == p * 4 + slot) } }

/-- Begin the write of a slot for each partition with an image. -/
def beginWrites (s : State) (slot : Nat) : List Nat → State
  | [] => s
  | p :: r =>
    let x := { snapAt s p slot with valid := false, invalid := false, writing := true, epoch := BitVec.ofNat 32 (getF s SYS_EPOCH),
                                    cycle := BitVec.ofNat 48 (getF s CYCLE_NUM), imported := [], importing := false }
    beginWrites (dropCopies (setSnap s p slot x) p slot) slot r

/-- SNAPSHOT_AT at its boundary: the slot's write begins, and the tick waits for it. -/
def takeSnapshot (s : State) (slot : Nat) : State :=
  let s1 := beginWrites s slot (imageParts s)
  { s1 with sys := { s1.sys with contents := mset s1.sys.contents none slot (some (capture s)),
                                 snapOpen := some (slot, getF s CYCLE_NUM) } }

/-- A slot's write is in progress. -/
def writingSnap (s : State) : Bool := s.sys.snap.any (fun e => e.2.writing && !e.2.importing)

/-- A partition's area of a slot is missing or too small for its image (R259, R271). -/
def areaShort (s : State) (p slot : Nat) : Bool :=
  let a := (snapAt s p slot).areas
  (List.range 4).any (fun st => decide ((a.getD st (0, 0)).2 < (Config.snapNeed (imageId s p) st).toNat))
    || a.isEmpty

/-! ## RESET_AT (R257) -/

/-- The fault record is cleared (R198). -/
def clearFault (s : State) : State := setFs s [(FAULT_CODE, 0), (FAULT_CYCLE, 0), (FAULT_LOC, 0)]

/-- RESET_AT at its boundary: cycle 0, receive queues emptied, credits 5; CLEAR_STATE and CLEAR_QUEUES by FLAGS. -/
def applyReset (s : State) (flags : Nat) : State :=
  let e := { s.eng with recv := [], credit := [] }
  let e1 := if bitOf flags 0 then { e with cur := [], nxt := [], slot := [] } else e
  let s1 := setF { s with eng := e1, cyc := { s.cyc with ready := false }, acq := { s.acq with wasReset := true } }
    CYCLE_NUM 0
  let s2 := if bitOf flags 1 then clearQueues s1 else s1
  reportAll (clearFault s2) true false

/-! ## Agreements (R254 to R256) -/

/-- No exchange record is on its way on this device: crossbars, mesh, frame engines, frame switch, trunk queues
(R231, R256). -/
def drained (s : State) : Bool :=
  s.ex.transit.isEmpty && s.ex.opened.isEmpty && s.ex.frames.isEmpty && s.ex.flits.isEmpty
    && s.lnk.trunk.all (fun e => e.2.queue.all (fun f => f.type != ftExch))

/-- The SYNC payload (R254). -/
def syncPayload (a : Agreement) (round : Nat) : BitVec 224 :=
  BitVec.ofNat 224 (0x42 + a.origin * 2 ^ 8 + a.seq * 2 ^ 17 + round * 2 ^ 25 + a.abort.toNat * 2 ^ 31 + a.maxcyc * 2 ^ 32)

/-- A SYNC message belongs to an agreement: its ORIGIN and SEQ, or for a stop those of any notice joined (R255, R263). -/
def ofAgreement (s : State) (a : Agreement) (m : SyncMsg) : Bool :=
  if a.kind = .stop then
    match s.sys.stop with
    | some x => x.ids.any (fun i => i.1 == m.origin && i.2.1 == m.seq)
    | none => false
  else m.origin == a.origin && m.seq == a.seq

/-- The messages of a round of an agreement. -/
def roundMsgs (s : State) (a : Agreement) (r : Nat) : List SyncMsg :=
  s.sys.syncs.filter (fun m => ofAgreement s a m && m.round == r)

/-- Put an agreement in place of another. -/
def putAgreement (s : State) (old new : Agreement) : State :=
  { s with sys := { s.sys with agreements := s.sys.agreements.map (fun a => if a = old then new else a) } }

/-- The operations of a boundary are in agreement, or the one of a time agreement: show the round (R278). -/
def markOps (s : State) (a : Agreement) (round : Nat) : State :=
  let hit := fun (g : Gop) => decide (g.state < 3) &&
    (if a.kind = .cycleOps then (!g.byTime || g.agreed) && g.cycle == a.cycle
     else a.kind == .timeOp && g.origin == a.origin && g.seq == a.seq)
  { s with sys := { s.sys with ops := s.sys.ops.map (fun g => if hit g then { g with state := 2, round := round } else g) } }

/-- The stop at the agreed boundary: a running device stops with its own cause, or with that of the notice of the lowest
device (R263). -/
def finishStop (s : State) : State :=
  match s.sys.stop with
  | none => s
  | some x =>
    let low := x.ids.foldl (fun b i => if i.1 < b.1 then i else b) (x.ids.headD (0, 0, 1))
    let s1 := { s with sys := { s.sys with stop := none } }
    if runState s = stRunning then stopDevice s1 (if x.cause = 0 then low.2.2 else x.cause) else s1

/-- A stop agreement is complete: M is its largest cycle number (R263). -/
def completeStop (s : State) (m : Nat) : State :=
  match s.sys.stop with
  | none => s
  | some x =>
    let low := x.ids.foldl (fun b i => min b i.1) ((x.ids.headD (0, 0, 1)).1)
    let s1 := setFs { s with sys := { s.sys with stop := some { x with target := some m } } }
      [(SYS_STOP_ORIGIN, low), (SYS_STOP_CAUSE, 1), (SYS_STOP_CYCLE, m)]
    if atBoundary s1 ∧ m ≤ getF s1 CYCLE_NUM then finishStop s1 else s1

/-- An operation is complete; its originator replies OK with C (R277). -/
def completeOp (s : State) (g : Gop) (reply : Bool) : State :=
  let g1 := { g with state := 3 }
  let s1 := { s with sys := { s.sys with ops := s.sys.ops.map (fun h => if h = g then g1 else h) } }
  if reply then replyGop s1 g rsOk g.cycle else s1

/-- STOP_AT at its boundary. Where the stop decision has just stopped the device there for another cause, the lowest code stands
(R142). -/
def stopAt (s : State) : State :=
  if runState s = stRunning then stopDevice s 3
  else if runState s = stStopped ∧ 3 < getF s STOP_CAUSE then setF s STOP_CAUSE 3
  else s

/-- Apply one operation at its boundary (R257). A snapshot is complete only when its write is. -/
def applyOp (s : State) (g : Gop) : State :=
  match g.kind with
  | 1 => completeOp (stopAt s) g true
  | 2 => takeSnapshot s (g.arg % 4)
  | 3 => completeOp (applyReset s g.flags) g true
  | 4 => completeOp (broadcastInto s g.arg (getF s CYCLE_NUM) g.data) g true
  | _ => completeOp s g true

def applyOps (s : State) : List Gop → State
  | [] => s
  | g :: r => applyOps (applyOp s g) r

/-- The operations of one kind among a list. -/
def ofKind (k : Nat) (l : List Gop) : List Gop := l.filter (fun g => g.kind == k)

/-- A quiescent agreement is complete: all operations of the boundary are applied in the order BARRIER, SNAPSHOT_AT,
RESET_AT, BROADCAST, STOP_AT, or none of them (R258, R259). -/
def completeCycle (s : State) (a : Agreement) : State :=
  let l := s.sys.ops.filter (fun g => g.state == 2 && (!g.byTime || g.agreed) && g.cycle == a.cycle)
  if a.abort then abortOps s l
  else applyOps s (ofKind 5 l ++ ofKind 2 l ++ ofKind 3 l ++ ofKind 4 l ++ ofKind 1 l)

/-- A time agreement is complete: C is its largest cycle number (R262). -/
def completeTime (s : State) (a : Agreement) : State :=
  match s.sys.ops.find? (fun g => g.state == 2 && g.byTime && !g.agreed && g.origin == a.origin && g.seq == a.seq) with
  | none => s
  | some g =>
    if a.abort then abortOp s g
    else
      let g1 := { g with state := 1, agreed := true, cycle := a.maxcyc }
      { s with sys := { s.sys with ops := s.sys.ops.map (fun h => if h = g then g1 else h) } }

/-- An agreement is complete (R255). -/
def completeAgreement (s : State) (a : Agreement) : State :=
  let s1 := { s with sys := { s.sys with agreements := s.sys.agreements.filter (fun b => b != a),
                                         syncs := s.sys.syncs.filter (fun m => !ofAgreement s a m) } }
  match a.kind with
  | .stop => completeStop s1 a.maxcyc
  | .timeOp => completeTime s1 a
  | .cycleOps => completeCycle s1 a

/-- One move of an agreement whose last round has come in on every UP trunk: the next round, or its end (R255, R256). -/
def advance (s : State) (a : Agreement) : Option State :=
  let r := a.round - 1
  let ms := roundMsgs s a r
  if ¬ (upTrunks s).all (fun t => ms.any (fun m => m.trunk == t)) then none
  else if a.kind = .cycleOps ∧ ¬ drained s then none
  else
    let a1 := { a with abort := a.abort || ms.any (fun m => m.abort), maxcyc := ms.foldl (fun x m => max x m.maxcyc) a.maxcyc }
    if getF s DIAMETER ≤ r ∨ (upTrunks s).isEmpty then
      some (completeAgreement (markOps (putAgreement s a a1) a1 r) a1)
    else
      let s1 := markOps (putAgreement s a { a1 with round := a.round + 1 }) a1 r
      some (sendOnTrunks s1 ftCtrl (syncPayload a1 a.round) (upTrunks s1))

/-- The first move that any of a list of agreements can make. -/
def advanceAny (s : State) : List Agreement → Option State
  | [] => none
  | a :: r =>
    match advance s a with
    | some s1 => some s1
    | none => advanceAny s r

/-- Let agreements move as far as they can, at most `n` moves. -/
def progress (s : State) : Nat → State
  | 0 => s
  | n + 1 =>
    match advanceAny s s.sys.agreements with
    | some s1 => progress s1 n
    | none => s

/-- Moves enough for any number of agreements at hand. -/
def progressAll (s : State) : State := progress s (65 * (s.sys.agreements.length + 1))

/-- This device is ready: round 0 on every UP trunk (R255). -/
def startAgreement (s : State) (a : Agreement) : State :=
  let s1 := { s with sys := { s.sys with agreements := s.sys.agreements ++ [{ a with round := 1 }] } }
  let s2 := sendOnTrunks (markOps s1 a 0) ftCtrl (syncPayload a 0) (upTrunks s)
  progressAll s2

/-! ## Which agreement is ready -/

/-- This device votes ABORT for an operation (R259). -/
def votesAbort (s : State) (g : Gop) : Bool :=
  g.vote || (g.kind == 2 && (decide (4 ≤ g.arg) || (imageParts s).any (fun p => areaShort s p g.arg)))
    || (g.kind == 4 && broadcastRefused s g.arg) || decide (getF s SYS_LEVEL < 1)

/-- An agreement of a kind and identity is under way. -/
def underWay (s : State) (k : AgreeKind) (cycle : Nat) : Bool :=
  s.sys.agreements.any (fun a => a.kind == k && a.cycle == cycle)

/-- The operations that hold this boundary: cycle C reached, not complete. -/
def dueOps (s : State) : List Gop :=
  s.sys.ops.filter (fun g => decide (g.state < 3) && (!g.byTime || g.agreed) && decide (g.cycle ≤ getF s CYCLE_NUM))

/-- The quiescent agreement of the earliest due boundary: named by the lowest (ORIGIN, SEQ) of its operations. -/
def readyCycle (s : State) : Option Agreement :=
  match dueOps s with
  | [] => none
  | g :: r =>
    let c := r.foldl (fun m h => min m h.cycle) g.cycle
    let l := (g :: r).filter (fun h => h.cycle == c && h.state == 1)
    match l with
    | [] => none
    | h :: t =>
      let low := t.foldl (fun b x => if x.origin < b.origin ∨ (x.origin = b.origin ∧ x.seq < b.seq) then x else b) h
      if atBoundary s ∧ drained s ∧ ¬ underWay s .cycleOps c then
        some ⟨.cycleOps, low.origin, low.seq, 0, (h :: t).any (votesAbort s), getF s CYCLE_NUM, c⟩
      else none

/-- The agreement of a time-scheduled operation whose mark is taken. -/
def readyTime (s : State) : Option Agreement :=
  match s.sys.ops.find? (fun g => g.state == 1 && g.byTime && !g.agreed && g.marked) with
  | some g => some ⟨.timeOp, g.origin, g.seq, 0, votesAbort s g, getF s CYCLE_NUM, 0⟩
  | none => none

/-- AGREEMENT_READY: an agreement whose readiness holds begins; agreements under way move on. -/
def execAgreementReady (s : State) : Host.Outcome State Fault Refusal :=
  match readyTime s with
  | some a => .next (startAgreement s a)
  | none =>
    match readyCycle s with
    | some a => .next (startAgreement s a)
    | none => .next (progressAll s)

/-- SYNC received: kept until its round is used (R255). Trunks that are not UP take no part (R251). -/
def onSync (s : State) (t : Nat) (p : BitVec 224) : State :=
  let s1 := traceSys s t 1 p
  if getF s1 (TS_STATE t) ≠ tsUp then s1
  else
    let m : SyncMsg := ⟨t, pf p 8 9, pf p 17 8, pf p 25 6, bitOf p.toNat 31, pf p 32 48⟩
    progressAll { s1 with sys := { s1.sys with syncs := s1.sys.syncs ++ [m] } }

/-! ## Aligned stops (R263) -/

/-- The stop's mark is taken, and its agreement begins at once. -/
def markStop (s : State) : State :=
  match s.sys.stop with
  | none => s
  | some x =>
    if x.marked then s
    else
      let id := x.ids.headD (0, 0, 1)
      startAgreement { s with sys := { s.sys with stop := some { x with marked := true } } }
        ⟨.stop, id.1, id.2.1, 0, false, getF s CYCLE_NUM, 0⟩

/-- The stop at hand has agreed on its boundary M. -/
def stopAgreed (s : State) : Bool :=
  match s.sys.stop with
  | some x => x.target.isSome
  | none => false

/-- The own cause of the stop at hand. -/
def setStopCause (s : State) (cause : Nat) : State :=
  { s with sys := { s.sys with stop := s.sys.stop.map (fun x => { x with cause := cause }) } }

/-- A local cause stops the device at this boundary: STOP_NOTICE, mark, agreement (R263). On the way to an agreed M the device stops
there in any case, and only its own cause is kept. -/
def localStop (s : State) (cause : Nat) : State :=
  if stopAgreed s then setStopCause s cause
  else
    let seq := (mget s.sys.ownSeq 0 0x43).toNat
    let id := (getF s DEV_ID, seq, cause)
    let s1 := stopNotice s cause (getF s CYCLE_NUM)
    match s1.sys.stop with
    | some x => markStop { s1 with sys := { s1.sys with stop := some { x with ids := x.ids ++ [id], cause := cause } } }
    | none => markStop { s1 with sys := { s1.sys with stop := some ⟨[id], false, none, cause⟩ } }

/-- A stop notice joins the stop at hand, or begins one; a device at a boundary or not running takes its mark at
once. -/
def joinStop (s : State) (origin seq cause : Nat) : State :=
  let s1 := match s.sys.stop with
    | some x => { s with sys := { s.sys with stop := some { x with ids := x.ids ++ [(origin, seq, cause)] } } }
    | none => { s with sys := { s.sys with stop := some ⟨[(origin, seq, cause)], false, none, 0⟩ } }
  if atBoundary s1 ∨ runState s1 ≠ stRunning then markStop s1 else s1

/-! ## Flooded messages (R249, R251) -/

/-- A flooded message arrives: the first copy is remembered, forwarded on every other UP trunk and acted on; later copies
are discarded. -/
def flooded (s : State) (t : Nat) (p : BitVec 224) (act : State → BitVec 224 → State) : State :=
  let s1 := traceSys s t 1 p
  let origin := pf p 8 9
  let seq := pf p 17 8
  if getF s1 (TS_STATE t) ≠ tsUp ∨ s1.sys.seen.contains (csubOf p, origin, seq) then s1
  else act (sendOnTrunks (remember s1 (csubOf p) origin seq) ftCtrl p ((upTrunks s1).erase t)) p

/-- STOP_NOTICE received. -/
def onStopNotice (s : State) (p : BitVec 224) : State := joinStop s (pf p 8 9) (pf p 17 8) (pf p 25 4)

/-- Another device's fault stops this one at a boundary: FAULTED, cause 8, SYS_STOP cause 2, no fault record (R264). -/
def applyNotice (s : State) : State :=
  match s.sys.notice with
  | none => s
  | some o =>
    let s1 := { s with sys := { s.sys with notice := none } }
    if runState s1 ≠ stRunning then s1
    else
      let s2 := setFs s1 [(STOP_CAUSE, 8), (SYS_STOP_ORIGIN, o), (SYS_STOP_CAUSE, 2), (SYS_STOP_CYCLE, getF s1 CYCLE_NUM)]
      answerStops (raiseEv (setRunState s2 stFaulted) evStop)

/-- FAULT_NOTICE received: the device stops at its next boundary. -/
def onFaultNotice (s : State) (p : BitVec 224) : State :=
  let s1 := { s with sys := { s.sys with notice := some (pf p 8 9) } }
  if atBoundary s1 then applyNotice s1 else s1

/-- FREEZE received: a running device freezes, without a trunk going DOWN; on any other an agreement in progress ends (R266, R267). -/
def onFreeze (s : State) (p : BitVec 224) : State :=
  if runState s = stRunning then freezeHere s (pf p 8 9) else endAgreements s

/-- Discard the open EXCH flits toward devices beyond a trunk, and count them (R267). -/
def discardFlits (s : State) (t : Nat) : State :=
  let gone := s.ex.flits.filter (fun e => getF s (DR_TRUNK e.1) == t)
  addF { s with ex := { s.ex with flits := s.ex.flits.filter (fun e => getF s (DR_TRUNK e.1) != t) } } (TRUNK_DISCARD t) gone.length

/-- A trunk is lost: DOWN at the link and in the system. The loss of an UP trunk freezes a running device, and ends an agreement in
progress on any other (R266, R267, R304). -/
def loseTrunk (s : State) (t : Nat) : State :=
  let was := getF s (TS_STATE t)
  let s1 := setTrunkState (discardFlits (downTrunk s t) t) t tsDown 0
  let s2 := updateLevel s1
  if was = tsUp then losePartner s2 t else progressAll s2

/-- LINK_DOWN: no good flit for 6 µs, or no recovery within 1 ms (R303, R304). -/
def execLinkDown (t : BitVec 7) (s : State) : Host.Outcome State Fault Refusal :=
  let k := t.toNat
  if getF s (LSTATE k) = tkActive ∨ getF s (LSTATE k) = tkRecovering then .next (loseTrunk s k) else .next s

/-! ## Global operations (R259 to R262) -/

/-- The lowest free GOP slot, else that of the oldest complete operation, which is overwritten; with the list that
remains (R260, R278). -/
def takeSlot (l : List Gop) : Option Nat × List Gop :=
  match (List.range 16).find? (fun j => !l.any (fun g => g.slot == some j)) with
  | some j => (some j, l)
  | none =>
    match l.find? (fun g => g.state == 3 && g.slot.isSome) with
    | some g => (g.slot, l.erase g)
    | none => (none, l)

/-- The tick of cycle C or of a later one has been released (R259). -/
def isLate (s : State) (c : Nat) : Bool :=
  decide (c < getF s CYCLE_NUM) || (c == getF s CYCLE_NUM && !atBoundary s)

/-- Keep an operation in a slot; without one, or late, the device votes ABORT (R259, R260). -/
def keepOp (s : State) (g : Gop) : State :=
  let (slot, l) := takeSlot s.sys.ops
  let late := !g.byTime && isLate s g.cycle
  let g1 := { g with slot := slot, vote := slot.isNone || late }
  let s0 := if g.byTime ∧ cmpOwner s 6 = 0 then takeCmp s 6 else s
  let s1 := armOps { s0 with sys := { s0.sys with ops := l ++ [g1] } }
  if late then raiseEv (setFlag s1 GOP_LATE true) evGopLate else s1

/-- The body of a GOP_ANNOUNCE payload above SEQ (R249). -/
def announceBody (g : Gop) (whenV : Nat) : Nat :=
  g.kind * 2 ^ 25 + g.byTime.toNat * 2 ^ 28 + g.flags * 2 ^ 29 + g.arg * 2 ^ 37 + whenV * 2 ^ 53 + g.ns * 2 ^ 101
    + g.data * 2 ^ 131

/-- GOP_ANNOUNCE received. -/
def onGopAnnounce (s : State) (p : BitVec 224) : State :=
  let byTime := bitOf p.toNat 28
  let w := pf p 53 48
  keepOp s { slot := none, state := 1, kind := pf p 25 3, byTime := byTime, aborted := false, origin := pf p 8 9,
             seq := pf p 17 8, round := 0, cycle := if byTime then 0 else w, sec := if byTime then w else 0,
             ns := pf p 101 30, flags := pf p 29 8, arg := pf p 37 16, data := pf p 131 64, vote := false,
             marked := false, agreed := false, fired := false, call := 0 }

/-- Issue an operation on this device: a slot, the announcement (R260). -/
def issueOp (s : State) (g : Gop) (whenV : Nat) : State :=
  let seq := (mget s.sys.ownSeq 0 0x41).toNat
  keepOp (originate s 0x41 (announceBody g whenV)) { g with origin := getF s DEV_ID, seq := seq }

/-- A time-scheduled operation waits for its mark here: at the first boundary after comparator 6 fires for its T, or at once when the device
does not run (R262). -/
def markDue (s : State) (g : Gop) : Bool :=
  g.state == 1 && g.byTime && !g.agreed && !g.marked &&
    (runState s != stRunning || (atBoundary s && (g.fired || opReached s g)))

/-- GOP_MARK: the marks that are due are taken, and the tick is held. -/
def execGopMark (s : State) : Host.Outcome State Fault Refusal :=
  .next { s with sys := { s.sys with ops := s.sys.ops.map (fun g => if markDue s g then { g with marked := true } else g) } }

/-- Something of the system layer holds this boundary (R136, R255 to R263, R274, R275). -/
def systemHolds (s : State) : Bool :=
  !(dueOps s).isEmpty || s.sys.ops.any (fun g => markDue s g || (g.state != 3 && g.byTime && !g.agreed && g.marked))
    || (match s.sys.stop with | some x => x.marked && x.target.isNone | none => false)
    || writingSnap s || s.sys.restoring.isSome

/-- A complete slot that the host reads returns to free (R278). -/
def freeSlot (s : State) (j : Nat) : State :=
  { s with sys := { s.sys with ops := s.sys.ops.filter (fun g => !(g.slot == some j && g.state == 3)) } }

/-- The operation in GOP slot `j`. -/
def opInSlot (s : State) (j : Nat) : Option Gop := s.sys.ops.find? (fun g => g.slot == some j)

/-! ## End of a snapshot's write, restore (R273 to R275) -/

/-- The lines of a snapshot area are written under the partition's snapshot keys (R431). -/
def stampAreas (s : State) (p : Nat) (l : List (Nat × Nat)) : State :=
  (List.range 4).foldl (fun a st =>
    let r := l.getD st (0, 0)
    if r.2 = 0 then a else stampRange a st (getF a (HBM_BASE p st) + r.1) r.2 (mget a.sec.snapKey 0 p)) s

/-- The areas of the slots being written. -/
def stampWritten (s : State) : List (Nat × SnapSlot) → State
  | [] => s
  | (k, x) :: r => stampWritten (if x.writing ∧ ¬ x.importing then stampAreas s (k / 4) x.areas else s) r

/-- The slots being written are complete: VALID unless marked. -/
def endWrites (s0 : State) : State :=
  let s := stampWritten s0 s0.sys.snap
  { s with sys := { s.sys with
      snap := s.sys.snap.map (fun e => (e.1,
        if e.2.writing ∧ ¬ e.2.importing then { e.2 with writing := false, valid := !e.2.invalid } else e.2)) } }

/-- Complete the snapshot operations in agreement: reply, and stop under STOP_AFTER (R257, R274). -/
def completeSnaps (s : State) : List Gop → State
  | [] => s
  | g :: r =>
    let s1 := if bitOf g.flags 0 ∧ runState s = stRunning then stopDevice s 3 else s
    completeSnaps (completeOp s1 g true) r

/-- SNAPSHOT_WRITE_COMPLETE: the slot becomes VALID, and the tick is released. -/
def execSnapshotWriteComplete (s : State) : Host.Outcome State Fault Refusal :=
  if writingSnap s then .next (completeSnaps (endWrites s) (s.sys.ops.filter (fun g => g.state == 2 && g.kind == 2)))
  else .next s

/-- Put the words of forced slots into the instruction store: `which` picks the original or the forced word. -/
def writeWords (s : State) (which : ForcedWord → BitVec 80) : List ForcedWord → State
  | [] => s
  | w :: r => writeWords (writeImem s w.key (which w)) which r

/-- Set registers from a list of bit addresses and values. -/
def setKeys (s : State) (fs : List Field) (vs : List (Nat × Nat)) : State :=
  setFs s (fs.filterMap (fun f => (vs.lookup f.key).map (fun v => (f, v))))

/-- Restore the bytes of FAR regions. -/
def restoreFar (s : State) (far : List (Nat × Nat)) (m : Memory) : Memory :=
  m.foldl (fun h c => wrByte h c.1 c.2) (mdrop s.hbm (inRanges far))

/-- Restored FAR lines are written under their owners' working keys. -/
def stampFar (s : State) : List (Nat × Nat) → State
  | [] => s
  | (a, n) :: r =>
    let st := a / 2 ^ 36
    let line := a % 2 ^ 36 / 64
    let count := (a % 64 + n + 63) / 64
    let s1 := match ownerOfLine s st line with
      | some p => stampRange s st line count (keyOfLine s p st line)
      | none => s
    stampFar s1 r

/-- Held deposits, waiting PEEKs and armed groups end with BUSY (R472). -/
def endRequests (s : State) : State :=
  let held := s.cyc.held.flatMap (fun e => e.2.map Prod.fst)
  let ids := held ++ s.ctl.peeks.map (fun p => p.call) ++ s.ctl.groups.map (fun g => g.call)
  finalReplies { s with cyc := { s.cyc with held := [] }, ctl := { s.ctl with peeks := [], groups := [] } } rsBusy [] ids

/-- Exchange records and system messages in the device's queues are discarded (R275). -/
def discardTraffic (s : State) : State :=
  let keep := fun (f : Flit) => f.type != ftExch && !(f.type == ftCtrl && decide (0x40 ≤ csubOf f.payload))
  { s with ex := { s.ex with transit := [], opened := [], frames := [], seqTx := [], seqRx := [], flits := [] },
           lnk := { s.lnk with trunk := s.lnk.trunk.map (fun e => (e.1, { e.2 with queue := e.2.queue.filter keep })) },
           sys := { s.sys with syncs := [], agreements := [], stop := none, notice := none } }

/-- DISARM: the state becomes IDLE. -/
def disarm (s : State) : State := setF { s with acq := { s.acq with arm := .none, force := false } } ASTATE 0

/-- A full load or restore ends the acquisition (R378). -/
def endAcquisition (s : State) : State :=
  let a := getF s ASTATE
  disarm (if a = 2 ∨ a = 3 then setFlag s ACQ_INTERRUPTED true else s)

/-- HRING_EN is cleared in every queue (R348). -/
def clearHrings (s : State) : State :=
  let base := queueBase 0 * 8
  { s with regs := mdrop s.regs (fun k => decide (base ≤ k) && decide (k < base + 32768 * 512) && (k - base) % 512 == 24) }

/-- The outbound queues after a restore: those toward other devices are empty, and the credits in use are the snapshot's (R272, R360). -/
def restoredOut (s : State) (lent : List (Nat × Nat)) : Map Queue :=
  let kept := (s.qs.q.filter (fun e => !inboundQ e.1)).map (fun e =>
    (e.1, if flag s (Q_SINK e.1) then { e.2 with window := [], spill := [], lent := 0 } else { e.2 with lent := 0 }))
  lent.foldl (fun m e => mset m .empty e.1 { mget m .empty e.1 with lent := e.2 }) kept

/-- Write a snapshot's contents back (R275). -/
def restoreFrom (s : State) (c : Snapshot) : State :=
  let s0 := discardTraffic (endRequests (endPartialLoad s))
  let s1 := writeWords s0 (fun w => w.orig) (s0.ctl.forced.flatMap (fun f => f.words))
  let s2 := writeWords s1 (fun w => w.forced) (c.forced.flatMap (fun f => f.words))
  let far := farRanges s2 ++ spillRanges { s2 with qs := { s2.qs with q := c.queues } } c.queues
  let e := { s2.eng with cur := c.cur, nxt := c.cur, slot := c.slot, recv := c.recv, credit := c.credit,
                         detached := c.detached, substitute := c.substitute, mem := c.mem, memErr := [], mmp := clearMmps s2.eng.mmp (fun _ => true),
                         msg := c.msgs, half := [] }
  let s3 := { s2 with eng := e, hbm := restoreFar s2 far c.hbm, qs := { s2.qs with q := c.queues ++ restoredOut s2 c.lent, asm := c.asm, logged := [] },
                      ctl := { s2.ctl with forced := c.forced },
                      taf := { s2.taf with fifo := [], seen := [] },
                      cyc := { s2.cyc with faulted := false, late := none, waiting := [], stopc := none, stopReq := false,
                                           ready := false, tout := c.tout, driven := [], sched := c.sched } }
  let s4 := setKeys (stampFar s3 far) snapFields c.settings
  let s5 := clearFault (setFs s4 [(CYCLE_NUM, c.cycle), (SYS_STOP_ORIGIN, 0), (SYS_STOP_CAUSE, 0), (SYS_STOP_CYCLE, 0),
    (STOP_LOC, 0), (SYS_EPOCH, 0), (IN_CYCLE, 0), (IN_COMMIT, 0)])
  identityChanged (reportAll (setRunState (endAcquisition (clearHrings s5)) stStopped) false true)

/-- Every line of the copies imported into a slot verifies (R446). -/
def copiesGood (s : State) (slot : Nat) : Bool :=
  (s.sec.copies.filter (fun e => e.1 / 4 % 4 == slot)).all (fun e =>
    (List.range (e.2.length / 72)).all (fun i => rawGood s (e.1 / 16) (e.1 % 4) (partFirst s (e.1 / 16) slot (e.1 % 4) + i) (copyLine e.2 i)))

/-- Every line of the areas of a slot verifies (R436). -/
def areasGood (s : State) (slot : Nat) : Bool :=
  copiesGood s slot && (imageParts s).all (fun p => (List.range 4).all (fun st =>
    let a := ((snapAt s p slot).areas).getD st (0, 0)
    rangeGood s p st (getF s (HBM_BASE p st) + a.1) a.2))

/-- A line of the slot fails its tag: the contents are left open, the device is FAULTED, and SEC_ALARM is raised (R434,
R436). -/
def restoreFailed (s : State) : State :=
  let s1 := restoreFrom (drawFree s) (normalSnapshot (Config.openSnapshot s.free))
  secAlarm (setRunState s1 stFaulted) alTag 3 0 0 0

/-- RESTORE_COMPLETE: the restore in progress is written back, and its command replies; `tagFail`: a line that was imported
does not verify. -/
def execRestoreComplete (tagFail : Bool) (s : State) : Host.Outcome State Fault Refusal :=
  match s.sys.restoring with
  | none => .next s
  | some (slot, call) =>
    let s1 := { s with sys := { s.sys with restoring := none } }
    match mget s.sys.contents none slot with
    | none => .next (finalReply s1 call rsBadParam [])
    | some c =>
      if tagFail ∨ ¬ areasGood s1 slot then .next (finalReply (restoreFailed s1) call rsDataAuth [])
      else .next (finalReply (restoreFrom s1 c) call rsOk [])

/-- GOP_SLOT_READ: a host read of a complete GOP slot returns it and frees it. -/
def gopWord (g : Gop) : Nat :=
  g.state + g.kind * 2 ^ 2 + g.byTime.toNat * 2 ^ 5 + g.aborted.toNat * 2 ^ 6 + g.origin * 2 ^ 7 + g.seq * 2 ^ 16
    + g.round * 2 ^ 24 + g.cycle * 2 ^ 64

/-- A host read of GOP_SLOT j. -/
def execGopSlotRead (slot : BitVec 4) (s : State) : Host.Outcome State Fault Refusal :=
  byHost s (fun a =>
    match opInSlot a slot.toNat with
    | none => { a with readData := 0 }
    | some g => { (freeSlot a slot.toNat) with readData := gopWord g })

end Sys2Proof.Machine
end

