-- ==== Sys2Proof/Machine/Commands.lean ====
section
/-!
DEFINITION. The command interface (R450 to R463): the checks that every command packet passes in order, its replies, and
the fetch of a command from a submission ring. What each command does stands in the file of its family.
-/
namespace Sys2Proof.Machine
open Sys2Proof Reg

/-! ## What a command is -/

/-- How a command ends: with its final reply, with an OK reply before its effect `k`, or with PENDING, after which `k` goes on
with the number of its call. -/
inductive Answer where
  | final (s : State) (status : Nat) (payload : List Byte)
  | after (s : State) (k : State → State)
  | pending (s : State) (k : State → Nat → State)

/-- Which fields of SCOPE a command uses (R456). -/
inductive ScopeUse where
  | plain      -- none
  | target     -- PARTITION
  | block      -- LEVEL, DIE, TILE
deriving DecidableEq, Repr

/-- A command: its checks in the order of R459 and its effect. `q` is the packet, `r` the requester partition. -/
structure Cmd where
  opcode : Nat
  ringsOnly : Bool
  length : State → Request → Bool
  scope : ScopeUse
  right : State → Request → Nat → Bool
  params : State → Request → Nat → Bool
  ready : State → Request → Nat → Nat
  run : State → Request → Nat → Answer
  /-- parameters of a reply that refuses for rights -/
  denial : Request → List Byte := fun _ => []

/-! ## Fields of a packet -/

/-- The requester partition of a transport (R450). -/
def partOf (v : Via) : Nat :=
  match v with
  | .ring r => r - 1
  | _ => 0

/-- A parameter field of `n` bytes at an offset. -/
def par (q : Request) (off n : Nat) : Nat := fieldAt q.params off n

def scDevice (q : Request) : Nat := bitsOf q.scope 0 9
def scDie (q : Request) : Nat := bitsOf q.scope 9 2
def scTile (q : Request) : Nat := bitsOf q.scope 11 5
def scPart (q : Request) : Nat := bitsOf q.scope 16 4
def scLevel (q : Request) : Nat := bitsOf q.scope 20 2
def scAny (q : Request) : Bool := bitOf q.scope 22

/-- SCOPE meets R456: this device or any, no field that the command does not use. -/
def scopeOk (s : State) (u : ScopeUse) (q : Request) : Bool :=
  (scAny q || scDevice q == getF s DEV_ID) && bitsOf q.scope 23 9 == 0 &&
    (match u with
     | .plain => scDie q == 0 && scTile q == 0 && scPart q == 0 && scLevel q == 0
     | .target => scDie q == 0 && scTile q == 0 && scLevel q == 0
     | .block => scPart q == 0 && scLevel q != 3 && (scLevel q == 2 || scTile q == 0) && (scLevel q != 0 || scDie q == 0))

/-- LENGTH fits the transport: 240 bytes of a slot, 256 of a packet elsewhere (R450, R451). -/
def lengthFits (q : Request) : Bool := decide (q.length ≤ 240) && q.params.length == q.length

/-- Bytes of the parameter block that are reserved hold 0. -/
def zeroPar (q : Request) (off n : Nat) : Bool := par q off n == 0

/-! ## Common checks -/

/-- A fixed length. -/
def lenIs (n : Nat) : State → Request → Bool := fun _ q => q.length == n

/-- Only partition 0. -/
def onlyZero : State → Request → Nat → Bool := fun _ _ r => r == 0

/-- Every partition. -/
def anyPart : State → Request → Nat → Bool := fun _ _ _ => true

/-- Every parameter is in range. -/
def noParams : State → Request → Nat → Bool := fun _ _ _ => true

/-- The device state always allows the command. -/
def always : State → Request → Nat → Nat := fun _ _ _ => rsOk

/-- BUSY unless a condition holds. -/
def busyUnless (b : Bool) : Nat := if b then rsOk else rsBusy

/-- A final reply OK. -/
def okReply (s : State) (payload : List Byte) : Answer := .final s rsOk payload

/-! ## Checks and start of a command (R459, R460) -/

/-- The transport accepts the command. -/
def transportOk (c : Cmd) (q : Request) : Bool :=
  !c.ringsOnly || (match q.via with | .ring _ => true | _ => false)

/-- Calls of a transport that are outstanding. -/
def callsOf (s : State) (v : Via) : List Call := s.ctl.calls.filter (fun c => c.via == v)

/-- The recovery console runs FW_WRITE and FW_ACTIVATE (R237) and the identity group, which SMBus carries at any time (R9); in STANDBY
the identity group and POWER_SET are accepted (R461). -/
def standbyOk (s : State) (q : Request) : Bool :=
  if s.pw.boot = .recovery then q.opcode == 0x0310 || q.opcode == 0x0311 || q.opcode / 256 == 1
  else decide (2 ≤ getF s PWR_STATE) || q.opcode / 256 == 1 || q.opcode == 0x0201

/-- The status with which a packet is refused; OK: none of the checks fails (R459, R460). -/
def refusal (c : Cmd) (s : State) (q : Request) : Nat :=
  let r := partOf q.via
  if q.version ≠ 1 ∨ transportOk c q = false then rsBadOpcode
  else if lengthFits q = false ∨ c.length s q = false ∨ 4 ≤ q.flags ∨ q.rsvd ≠ 0 ∨ scopeOk s c.scope q = false
      ∨ (callsOf s q.via).any (fun x => x.tag == q.tag) = true then rsBadParam
  else if c.right s q r = false then rsNoRight
  else if c.params s q r = false then rsBadParam
  else if standbyOk s q = false then rsBusy
  else c.ready s q r

/-- Register a call that has replied PENDING. -/
def openCall (s : State) (q : Request) (target : Nat) : State × Nat :=
  let id := s.ctl.nextCall
  let c : Call := ⟨id, q.via, q.opcode, q.tag, bitOf q.flags 0, partOf q.via, target⟩
  ({ s with ctl := { s.ctl with calls := s.ctl.calls ++ [c], nextCall := id + 1 } }, id)

/-- Mule serves one command packet: the checks, then its effect and its reply (R459, R460). A refusal for rights is counted
(R434). -/
def serve (c : Cmd) (s : State) (q : Request) : State :=
  let st := refusal c s q
  if st ≠ rsOk then sendReply (if st = rsNoRight then refuseRights s else s) q.via q.opcode q.tag st
      (if st = rsNoRight then c.denial q else []) (bitOf q.flags 0)
  else
    match c.run s q (partOf q.via) with
    | .final s1 status payload => sendReply s1 q.via q.opcode q.tag status payload (bitOf q.flags 0)
    | .after s1 k => k (sendReply s1 q.via q.opcode q.tag rsOk [] (bitOf q.flags 0))
    | .pending s1 k =>
      if 64 ≤ (callsOf s q.via).length then sendReply s q.via q.opcode q.tag rsBusy [] (bitOf q.flags 0)
      else
        let p := openCall s1 q (scPart q)
        k (sendReply p.1 q.via q.opcode q.tag rsPending [] false) p.2

/-! ## Submission rings (R451, R452, R454, R460) -/

/-- The request that a packet of a ring makes. -/
def ringRequest (r opcode : Nat) (p : Packet) : Request :=
  { via := .ring r, opcode := opcode, tag := p.tag.toNat, flags := p.flags.toNat, version := p.version.toNat,
    length := p.length.toNat, scope := p.scope.toNat, rsvd := p.rsvd.toNat, params := p.params }

/-- The device fetches the next packet of a ring: a packet waits, fewer than 256 replies are held, Mule serves the rings, the host
link is up, and a FENCE finds no earlier command outstanding (R452, R460, R476, R515). -/
def canFetch (s : State) (r flags : Nat) : Bool :=
  decide (r ≤ 16) && flag s (CR_ENABLE r) && getF s (CR_SQ_FETCHED r) != getF s (CR_SQ_PROD r)
    && decide ((heldOf s r).length < 256) && s.pw.boot == .up && muleUp s && hostUp s
    && (!bitOf flags 1 || (callsOf s (.ring r)).isEmpty)

/-- SQ_FETCHED counts the packet. -/
def countFetch (s : State) (r : Nat) : State :=
  setF s (CR_SQ_FETCHED r) ((getF s (CR_SQ_FETCHED r) + 1) % 2 ^ 32)

/-- A command of ring `r`: its packet is the next of the ring. -/
def fromRing (c : Cmd) (r : BitVec 5) (p : Packet) (s : State) : Host.Outcome State Fault Refusal :=
  let k := r.toNat
  if canFetch s k p.flags.toNat then .next (serve c (countFetch s k) (ringRequest k c.opcode p)) else .next s

end Sys2Proof.Machine
end

