-- ==== Sys2Proof/Machine/Adapter.lean ====
section
/-!
DEFINITION. The Target Adapter Fabric (R396 to R417): its configuration, cells and lines, block memories, clock regions,
the target-bit interface, the asynchronous FIFOs, the fall-back hard blocks, and the adapter commands.
-/
namespace Sys2Proof.Machine
open Sys2Proof Reg

/-! ## Configuration (R397 to R401) -/

/-- `n` bytes of a column's configuration space. -/
def cfgAt (s : State) (c off n : Nat) : Nat := rdBytes s.taf.cfg (c * 65536 + off) n

/-- The word of cell `i` of column `c`. -/
def cellWord (s : State) (c i : Nat) : Nat := cfgAt s c (i * 16) 16

/-- The driver word of a global line. -/
def lineWord (s : State) (g : Nat) : Nat := cfgAt s (g / 128) (0x8000 + g % 128 * 4) 4

/-- The sink selector of an index of a column. -/
def sinkSel (s : State) (c k : Nat) : Nat := cfgAt s c (0x8200 + k * 2) 2 % 16384

/-- The configuration word of a block memory. -/
def bramWord (s : State) (m : Nat) : Nat := cfgAt s (m / 4) (0x8940 + m % 4 * 8) 8

/-- The configuration word of a FIFO. -/
def fifoWord (s : State) (f : Nat) : Nat := cfgAt s f 0x8980 8

/-! ## FIFOs (R410) -/

/-- Words of FIFO `f`, oldest first. -/
def fifoWords (s : State) (f : Nat) : List Nat := mget s.taf.fifo [] f

/-- The width of FIFO `f` in bits, and its depth in words. -/
def fifoWidth (s : State) (f : Nat) : Nat := 8 * 2 ^ bitsOf (fifoWord s f) 2 2
def fifoDepth (s : State) (f : Nat) : Nat := 2048 / 2 ^ bitsOf (fifoWord s f) 2 2

def fifoIn (s : State) (f : Nat) : Bool := bitOf (fifoWord s f) 1
def fifoObase (s : State) (f : Nat) : Nat := bitsOf (fifoWord s f) 8 12
def fifoIbase (s : State) (f : Nat) : Nat := bitsOf (fifoWord s f) 20 12

/-- The FIFO is in use: EN, and no bit range passes 4,095. -/
def fifoOn (s : State) (f : Nat) : Bool :=
  bitOf (fifoWord s f) 0
    && decide ((if fifoIn s f then fifoIbase s f else fifoObase s f) + fifoWidth s f ≤ 4095)

/-- The FIFO has no free word. -/
def fifoFull (s : State) (f : Nat) : Bool := decide (fifoDepth s f ≤ (fifoWords s f).length)

def setFifo (s : State) (f : Nat) (l : List Nat) : State :=
  { s with taf := { s.taf with fifo := mset s.taf.fifo [] f l } }

/-! ## Pins (R413, R414) -/

/-- The supply of a TIO bank is good. -/
def bankGood (s : State) (tio : Nat) : Bool := flag s (BANK_PGOOD (tio / 32))

/-- The input of a TIO pin: 0 without IN_EN or in a bank whose supply is not good. -/
def tioInput (s : State) (n : Nat) : Bool :=
  bankGood s n && bitOf (cfgAt s (n / 4) (0x8900 + n % 4 * 4) 4) 5 && mget s.taf.pins false n

/-- The fall-back blocks own the pin (R415). -/
def fallbackPin (s : State) (n : Nat) : Bool := flag s FB_EN && decide (224 ≤ n) && decide (n < 240)

/-! ## Signals (R398, R399) -/

/-- A truth table at four inputs. -/
def lutBit (tt : Nat) (a b c d : Bool) : Bool := bitOf tt (d.toNat * 8 + c.toNat * 4 + b.toNat * 2 + a.toNat)

/-- A signal of a FIFO as the fabric sees it; DATA of an empty FIFO is open. -/
def fifoSignal (s : State) (draw f k : Nat) : Bool :=
  if k < 64 then
    match fifoWords s f with
    | [] => Config.fabricBit draw (0x200000 + f * 128 + k)
    | w :: _ => bitOf w k
  else if k = 64 then (fifoWords s f).isEmpty
  else if k = 65 then fifoFull s f
  else false

/-- A line's source that is no cell. -/
def sourceBit (s : State) (draw src : Nat) : Bool :=
  if 0x20000 ≤ src ∧ src < 0x29000 then
    let o := src - 0x20000
    bitOf (mget s.taf.bout 0 (o / 144 * 2 + o % 144 / 72)) (o % 72)
  else if 0x29000 ≤ src ∧ src < 0x29100 then tioInput s (src - 0x29000)
  else if 0x29100 ≤ src ∧ src < 0x29300 then mget s.taf.pins false (256 + (src - 0x29100))
  else if 0x2A000 ≤ src ∧ src < 0x2B000 then mget s.taf.out false (src - 0x2A000)
  else if 0x2B000 ≤ src ∧ src < 0x2D000 then fifoSignal s draw ((src - 0x2B000) / 128) ((src - 0x2B000) % 128)
  else if src = 0x2D000 then s.taf.strobe
  else if src = 0x2D001 then flag s TIN_READY
  else if 0x2D008 ≤ src ∧ src < 0x2D010 then bitOf s.taf.cycLsb (src - 0x2D008)
  else src == 0x3FFFF

/-- The signal that a selector of column `c` names, following lines and cells for at most `n` steps: more steps than there
are cells and lines mean a loop without a flip-flop, whose value is open (R399). -/
def signalOf (s : State) (draw : Nat) : Nat → Nat → Nat → Bool
  | 0, c, sel => Config.fabricBit draw (c * 2048 + sel % 2048)
  | n + 1, c, sel =>
    if sel < 0x800 then
      let w := cellWord s c sel
      if bitOf w 72 then mget s.taf.ff false (c * 2048 + sel)
      else
        let a := signalOf s draw n c (bitsOf w 16 14)
        let b := signalOf s draw n c (bitsOf w 30 14)
        let d := signalOf s draw n c (bitsOf w 44 14)
        if bitOf w 73 then lutBit (w % 256) a b d false
        else lutBit (w % 65536) a b d (signalOf s draw n c (bitsOf w 58 14))
    else if sel < 0x2800 then
      let w := lineWord s (sel - 0x800)
      let src := bitsOf w 0 18
      if ¬ bitOf w 31 then false
      else if src < 0x20000 then signalOf s draw n (src / 2048) (src % 2048)
      else sourceBit s draw src
    else sel == 0x3FFF

/-- More steps than any path without a loop has. -/
def signalFuel : Nat := 300000

/-- A selector's signal now. -/
def signal (s : State) (draw c sel : Nat) : Bool := signalOf s draw signalFuel c sel

/-- A sink of column `c` (R400). -/
def sinkBit (s : State) (draw c k : Nat) : Bool := signal s draw c (sinkSel s c k)

/-- `n` sinks of a column as a number. -/
def sinkBits (s : State) (draw c k : Nat) : Nat → Nat
  | 0 => 0
  | n + 1 => (sinkBit s draw c k).toNat + 2 * sinkBits s draw c (k + 1) n

/-- The TAP drives the scanned pins: EXTEST, HIGHZ or CLAMP (R527). -/
def tapTakes (s : State) : Bool := s.pw.jtag == 0x00 || s.pw.jtag == 0x03 || s.pw.jtag == 0x04

/-- What the fabric drives on a TIO pin; `none`: high impedance (R400, R413 to R415). -/
def tioOutput (s : State) (n : Nat) : Option Bool :=
  if ¬ tapTakes s ∧ flag s FAB_OE ∧ bankGood s n ∧ ¬ fallbackPin s n ∧ sinkBit s s.free (n / 4) (2 * (n % 4) + 1) then
    some (sinkBit s s.free (n / 4) (2 * (n % 4)))
  else none

/-- What the fabric drives on an LVDS pair: the eight output bits. -/
def lvdsOutput (s : State) (c : Nat) : Option Nat :=
  if ¬ tapTakes s ∧ flag s FAB_OE ∧ sinkBit s s.free c 16 then some (sinkBits s s.free c 8 8) else none

/-! ## Clearing and release (R402) -/

/-- The fabric is cleared. -/
def clearFabric (s : State) : State :=
  let keep := s.taf
  setFs { s with taf := { Adapter.reset with pins := keep.pins, tbRegion := keep.tbRegion, tbRclk := keep.tbRclk,
                                             tinAuto := keep.tinAuto, moving := keep.moving, tclkMhz := keep.tclkMhz, tx := keep.tx, rx := keep.rx, sent := keep.sent,
                                             left := keep.left } }
    [(TAF_CONFIGURED, 0), (TIN_READY, 0), (FAB_OE, 0)]

/-- Cells whose configuration word is not 0. -/
def usedCells (s : State) : List Nat :=
  ((s.taf.cfg.filter (fun e => decide (e.1 % 65536 < 0x8000))).map (fun e => e.1 / 65536 * 2048 + e.1 % 65536 / 16)).eraseDups

/-- Initial contents of the block memories, by byte. -/
def initialBram (s : State) : Memory :=
  s.taf.cfg.filterMap (fun e =>
    if 0x9000 ≤ e.1 % 65536 ∧ e.1 % 65536 < 0x9000 + 18432 then
      some (e.1 / 65536 * 18432 + (e.1 % 65536 - 0x9000), e.2)
    else none)

/-- The dividers and selections of each region take their configuration. -/
def loadRegions (s : State) : State :=
  (List.range 16).foldl (fun a r => setFs a [(REGION_DIV r, cfgAt a (4 * r) 0x89C0 8), (REGION_SEL r, cfgAt a (4 * r) 0x89C8 1)]) s

/-- The configuration is released: flip-flops take INIT, memories their contents, the clocks start, CONFIGURED is set. Both
copies of inbound bits are 0 and the interface is ready (R402, R408). -/
def releaseFabric (s : State) : State :=
  let ff := (usedCells s).foldl (fun m k => mset m false k (bitOf (cellWord s (k / 2048) (k % 2048)) 74)) []
  let s1 := { s with taf := { s.taf with ff := ff, bram := initialBram s, bout := [], bread := [], copy0 := [], copy1 := [],
                                         ptr := false, flip := false } }
  setFs (loadRegions s1) [(TAF_CONFIGURED, 1), (TIN_READY, 1)]

/-! ## Clocks (R406) -/

/-- The clock number of RCLK `k` of a region. -/
def rclkNo (region k : Nat) : Nat := region * 4 + k

/-- The multiplexer of a clock is switching. -/
def switchOf (s : State) (clk : Nat) : Option MuxSwitch := mget s.taf.moving none clk
def setSwitch (s : State) (clk : Nat) (m : Option MuxSwitch) : State :=
  { s with taf := { s.taf with moving := mset s.taf.moving none clk m } }

/-- The divider that a clock's multiplexer selects. -/
def dividerOf (s : State) (clk : Nat) : Nat := bitsOf (getF s (REGION_SEL (clk / 4))) (clk % 4 * 2) 2

/-- Divider `k` of a region as a word of 16 bits. -/
def dividerWord (s : State) (region k : Nat) : Nat := bitsOf (getF s (REGION_DIV region)) (16 * k) 16

/-- SRC of divider `k` of a region, and its source periods for one output period. -/
def dividerSrc (s : State) (region k : Nat) : Nat := bitsOf (dividerWord s region k) 0 4
def dividerLen (s : State) (region k : Nat) : Nat := bitsOf (dividerWord s region k) 4 8 + 1

/-- The divider is gated off: its output would exceed 400 MHz. Only a TCLK pin is so fast. -/
def dividerOver (s : State) (region k : Nat) : Bool :=
  decide (dividerSrc s region k < 8 ∧ 400 * dividerLen s region k < mget s.taf.tclkMhz 0 (dividerSrc s region k))

/-- The divider has a source and is not gated off. -/
def dividerRuns (s : State) (region k : Nat) : Bool := decide (dividerSrc s region k ≤ 11) && !dividerOver s region k

/-- A multiplexer holds its output low. -/
def heldLow (s : State) (clk : Nat) : Bool := match switchOf s clk with | some m => m.held | none => false

/-- The clock runs: the fabric is configured, its multiplexer does not hold it low, and its divider runs. -/
def clockRuns (s : State) (clk : Nat) : Bool :=
  flag s TAF_CONFIGURED && !heldLow s clk && dividerRuns s (clk / 4) (dividerOf s clk)

/-- A multiplexer selects a divider, or is switching to it. -/
def dividerUsed (s : State) (region k : Nat) : Bool :=
  (List.range 4).any (fun m => dividerOf s (rclkNo region m) == k
    || (match switchOf s (rclkNo region m) with | some x => x.sel == k | none => false))

/-- CLK_OVER is set for a region with a divider that is gated off. -/
def noteOver (s : State) (region : Nat) : State :=
  if (List.range 4).any (dividerOver s region) then setFlag s (CLK_OVER region) true else s

/-- Reprogram a divider: SRC and DIV_M1. Its output begins with a full period. -/
def setDivider (s : State) (region k v : Nat) : State :=
  let o := getF s (REGION_DIV region)
  noteOver (setF { s with taf := { s.taf with phase := mset s.taf.phase 0 (rclkNo region k) 0 } } (REGION_DIV region)
    (o - dividerWord s region k * 2 ^ (16 * k) + v % 4096 * 2 ^ (16 * k))) region

/-- A write of the divider words: only dividers that no multiplexer selects change. -/
def writeDividers (s : State) (region v : Nat) : State :=
  (List.range 4).foldl (fun a k => if dividerUsed a region k then a else setDivider a region k (bitsOf v (16 * k) 12)) s

/-- A multiplexer follows its new clock, and TAF_CLKSEL replies. -/
def endSwitch (s : State) (clk : Nat) : State :=
  match switchOf s clk with
  | none => s
  | some m =>
    let o := getF s (REGION_SEL (clk / 4))
    let s1 := setF s (REGION_SEL (clk / 4)) (o - dividerOf s clk * 2 ^ (clk % 4 * 2) + m.sel * 2 ^ (clk % 4 * 2))
    finalReply (setSwitch s1 clk none) m.call rsOk []

/-! ### Edges of the sources (R406) -/

/-- What a divider's output shows at an edge of its source. -/
inductive DivEdge where
  | rise
  | fall
deriving DecidableEq, Repr

/-- The phase of a divider after a rising edge of its source. -/
def nextPhase (s : State) (region k : Nat) : Nat :=
  let p := mget s.taf.phase 0 (rclkNo region k)
  if dividerLen s region k ≤ p then 1 else p + 1

/-- The edge of a divider's output when its source shows an edge; `rising`: which. The output is high for the first half of its periods,
rounded up; with DIV_M1 = 0 it is the source itself. -/
def outputEdge (s : State) (region k : Nat) (rising : Bool) : Option DivEdge :=
  let n := dividerLen s region k
  if n = 1 then some (if rising then .rise else .fall)
  else if ¬ rising then none
  else if nextPhase s region k = 1 then some .rise
  else if nextPhase s region k = (n + 1) / 2 + 1 then some .fall
  else none

/-- The edge of a source among those named at one time. -/
def sourceEdge (edges : List (BitVec 4 × Bool)) (src : Nat) : Option Bool := (edges.find? (fun e => e.1.toNat == src)).map Prod.snd

/-- The edge that a divider's output shows at the source edges named. -/
def dividerEdge (s : State) (edges : List (BitVec 4 × Bool)) (region k : Nat) : Option DivEdge :=
  match sourceEdge edges (dividerSrc s region k) with
  | some rising => if flag s TAF_CONFIGURED && dividerRuns s region k then outputEdge s region k rising else none
  | none => none

/-- The region clocks that rise. -/
def risingClocks (s : State) (edges : List (BitVec 4 × Bool)) : List Nat :=
  (List.range 64).filter (fun c => clockRuns s c && dividerEdge s edges (c / 4) (dividerOf s c) == some .rise)

/-- A multiplexer that is switching at the edges: it holds its output low from a falling edge of the old clock, and then counts those of
the new one. -/
def moveSwitch (s : State) (edges : List (BitVec 4 × Bool)) (clk : Nat) (m : MuxSwitch) : MuxSwitch :=
  if m.held then (if dividerEdge s edges (clk / 4) m.sel = some .fall then { m with falls := m.falls + 1 } else m)
  else if dividerEdge s edges (clk / 4) (dividerOf s clk) = some .fall then { m with held := true }
  else m

/-- The phase of every divider after the edges; one that does not run begins again with a full period. -/
def movePhase (s : State) (edges : List (BitVec 4 × Bool)) (k : Nat) : Nat :=
  if ¬ (flag s TAF_CONFIGURED && dividerRuns s (k / 4) (k % 4)) then 0
  else if sourceEdge edges (dividerSrc s (k / 4) (k % 4)) = some true then nextPhase s (k / 4) (k % 4)
  else mget s.taf.phase 0 k

/-- The dividers and multiplexers at the edges. -/
def moveClocks (s : State) (edges : List (BitVec 4 × Bool)) : State :=
  { s with taf := { s.taf with
      phase := (List.range 64).foldl (fun m k => mset m 0 k (movePhase s edges k)) [],
      moving := s.taf.moving.map (fun e => (e.1, e.2.map (moveSwitch s edges e.1))) } }

/-- The frequency of the TCLK pins named is seen; a divider that it makes too fast is gated off. -/
def seeMhz (s : State) (edges : List (BitVec 4 × Bool)) (mhz : Nat) : State :=
  let s1 := { s with taf := { s.taf with tclkMhz := edges.foldl (fun m e => if e.1.toNat < 8 then mset m 0 e.1.toNat mhz else m) s.taf.tclkMhz } }
  if flag s TAF_CONFIGURED then (List.range 16).foldl noteOver s1 else s1

/-! ## Block memories (R404, R405) -/

/-- Width of a word and ADDR bits of an aspect code; `none`: reserved. -/
def aspectOf (code : Nat) : Option (Nat × Nat) :=
  match code with
  | 0 => some (1, 15) | 1 => some (2, 14) | 2 => some (4, 13) | 3 => some (9, 12) | 4 => some (18, 11) | 5 => some (36, 10)
  | 6 => some (72, 9) | _ => none

/-- Row and first bit of word `a` of width `w`. -/
def bramPlace (w a : Nat) : Nat × Nat :=
  let per := if w ≤ 4 then 64 / w else 72 / w
  (a / per, a % per * w)

/-- The first bit of a place in the memory of bytes. -/
def bramBit (m : Nat) (pl : Nat × Nat) : Nat := (m * 4608 + pl.1 * 9) * 8 + pl.2

/-- What a port does at an edge: width, place, data, WE. -/
structure BramPort where
  width : Nat
  place : Nat × Nat
  data : Nat
  write : Bool
deriving DecidableEq, Repr

/-- The clock of port P of memory `m`. -/
def bramClock (s : State) (m p : Nat) : Nat := rclkNo (m / 16) (bitsOf (bramWord s m) (6 + 2 * p) 2)

/-- The access of a port at an edge of one of `clks`; `none`: it does nothing. -/
def bramAccess (s : State) (draw : Nat) (clks : List Nat) (m p : Nat) : Option BramPort :=
  match aspectOf (bitsOf (bramWord s m) (3 * p) 3) with
  | none => none
  | some (w, ab) =>
    let base := 147 + (2 * (m % 4) + p) * 89
    if clks.contains (bramClock s m p) ∧ sinkBit s draw (m / 4) (base + 88) then
      some ⟨w, bramPlace w (sinkBits s draw (m / 4) base ab), sinkBits s draw (m / 4) (base + 15) w,
        sinkBit s draw (m / 4) (base + 87)⟩
    else none

/-- Two accesses touch one word. -/
def bramOverlap (x y : BramPort) : Bool :=
  x.place.1 == y.place.1 && decide (x.place.2 < y.place.2 + y.width) && decide (y.place.2 < x.place.2 + x.width)

/-- Open bits: each of `w` bits of a draw. -/
def openBits (draw sig : Nat) : Nat → Nat
  | 0 => 0
  | n + 1 => (Config.fabricBit draw sig).toNat + 2 * openBits draw (sig + 1) n

/-- The word an access reads from the memory before the edge. -/
def bramRead (s : State) (m : Nat) (x : BramPort) : Nat := rdBits s.taf.bram (bramBit m x.place) x.width

/-- The word a port reads when the other port accesses it under another clock: a mixture of old and new bits. -/
def mixedRead (s : State) (draw m : Nat) (x y : BramPort) : Nat :=
  let old := bramRead s m x
  let new := rdBits (wrBits s.taf.bram (bramBit m y.place) y.width y.data) (bramBit m x.place) x.width
  let mask := openBits draw (0x400000 + m * 128) x.width
  (old &&& (mask ^^^ maxOf x.width)) ||| (new &&& mask)

/-- The read result of a port. -/
def portRead (s : State) (draw m : Nat) (sameClock : Bool) (x : BramPort) (other : Option BramPort) : Nat :=
  match other with
  | some y => if ¬ sameClock ∧ y.write ∧ bramOverlap x y then mixedRead s draw m x y else bramRead s m x
  | none => bramRead s m x

/-- Store a port's data. -/
def bramStore (mem : Memory) (m : Nat) (x : Option BramPort) : Memory :=
  match x with
  | some y => if y.write then wrBits mem (bramBit m y.place) y.width y.data else mem
  | none => mem

/-- After both stores: two writes of one word under different clocks leave it open. -/
def bramClash (draw m : Nat) (mem : Memory) (sameClock : Bool) (x y : Option BramPort) : Memory :=
  match x, y with
  | some a, some b =>
    if ¬ sameClock ∧ a.write ∧ b.write ∧ bramOverlap a b then
      let mem1 := wrBits mem (bramBit m a.place) a.width (openBits draw (0x500000 + m * 256) a.width)
      wrBits mem1 (bramBit m b.place) b.width (openBits draw (0x500080 + m * 256) b.width)
    else mem
  | _, _ => mem

/-- The outputs of port P after an edge: the word read, one clock later with the output register. -/
def bramOut (s s0 : State) (draw : Nat) (clks : List Nat) (m p : Nat) (sameClock : Bool) (x other : Option BramPort) : State :=
  let k := m * 2 + p
  if ¬ clks.contains (bramClock s0 m p) then s
  else
    let oreg := bitOf (bramWord s0 m) (10 + p)
    let s1 := if oreg then { s with taf := { s.taf with bout := mset s.taf.bout 0 k (mget s0.taf.bread 0 k) } } else s
    match x with
    | none => s1
    | some a =>
      let v := portRead s0 draw m sameClock a other
      if oreg then { s1 with taf := { s1.taf with bread := mset s1.taf.bread 0 k v } }
      else { s1 with taf := { s1.taf with bout := mset s1.taf.bout 0 k v } }

/-- One block memory at an edge; `s0` is the state before it. -/
def bramEdge (s s0 : State) (draw : Nat) (clks : List Nat) (m : Nat) : State :=
  let a := bramAccess s0 draw clks m 0
  let b := bramAccess s0 draw clks m 1
  let same := bramClock s0 m 0 == bramClock s0 m 1
  let mem := bramClash draw m (bramStore (bramStore s.taf.bram m a) m b) same a b
  bramOut (bramOut { s with taf := { s.taf with bram := mem } } s0 draw clks m 0 same a b) s0 draw clks m 1 same b a

/-! ## A clock edge (R397, R405, R408, R411) -/

/-- The next value of a cell's flip-flop. -/
def ffNext (s : State) (draw k : Nat) : Bool :=
  let c := k / 2048
  let w := cellWord s c (k % 2048)
  let a := signal s draw c (bitsOf w 16 14)
  let b := signal s draw c (bitsOf w 30 14)
  let d := signal s draw c (bitsOf w 44 14)
  let e := signal s draw c (bitsOf w 58 14)
  if bitOf w 73 then (if e then lutBit (w % 256) a b d false else mget s.taf.ff false k) else lutBit (w % 65536) a b d e

/-- The clock of a cell. -/
def cellClock (s : State) (k : Nat) : Nat := rclkNo (k / 2048 / 4) (bitsOf (cellWord s (k / 2048) (k % 2048)) 75 2)

/-- The flip-flops after an edge. A cell whose word is 0 keeps its 0. -/
def ffEdge (s : State) (draw : Nat) (clks : List Nat) : Map Bool :=
  (usedCells s).foldl (fun m k => if clks.contains (cellClock s k) then mset m false k (ffNext s draw k) else m) s.taf.ff

/-- The fabric side of FIFO `f` at an edge: RE pops the head of an OUT FIFO, WE writes an IN FIFO or overflows. -/
def fifoEdge (s s0 : State) (draw : Nat) (clks : List Nat) (f : Nat) : State :=
  if ¬ fifoOn s0 f ∨ ¬ clks.contains (rclkNo (f / 4) (bitsOf (fifoWord s0 f) 4 2)) then s
  else if fifoIn s0 f then
    if ¬ sinkBit s0 draw f 145 then s
    else if fifoFull s0 f then addF s (FIFO_OVERFLOW f) 1
    else addF (setFifo s f (fifoWords s f ++ [sinkBits s0 draw f 81 (fifoWidth s0 f)])) (FIFO_WORDS f) 1
  else if sinkBit s0 draw f 146 then setFifo s f ((fifoWords s f).drop 1)
  else s

/-- TB_CLK. -/
def tbClock (s : State) : Nat := rclkNo s.taf.tbRegion s.taf.tbRclk

/-- The fabric's 4,096 inbound sinks. -/
def inboundSinks (s : State) (draw : Nat) : Map Bool :=
  (List.range 4096).foldl (fun m i => mset m false i (sinkBit s draw (i / 64) (17 + i % 64))) []

/-- The target-bit interface at an edge of TB_CLK: the sinks enter the copy that the pointer does not name, and a commit
freezes it; while a flip is crossing, no copy is written (R408). CYC_STROBE ends. -/
def tbEdge (s s0 : State) (draw : Nat) : State :=
  let want := signal s0 draw 0 (cfgAt s0 0 0x89E0 2 % 16384)
  let s1 := { s with taf := { s.taf with strobe := false } }
  if s0.taf.flip then (if ¬ s0.taf.tinAuto ∧ want then addF s1 TIN_REFUSED 1 else s1)
  else
    let m := inboundSinks s0 draw
    let s2 := if s0.taf.ptr then { s1 with taf := { s1.taf with copy0 := m } } else { s1 with taf := { s1.taf with copy1 := m } }
    if ¬ flag s0 TIN_READY then (if ¬ s0.taf.tinAuto ∧ want then addF s2 TIN_REFUSED 1 else s2)
    else if s0.taf.tinAuto ∨ want then setFlag { s2 with taf := { s2.taf with flip := true } } TIN_READY false
    else s2

/-- Rising edges of a set of region clocks at one time. -/
def clockEdge (s0 : State) (clks : List Nat) : State :=
  let draw := s0.free
  let s1 := { drawFree s0 with taf := { s0.taf with ff := ffEdge s0 draw clks } }
  let s2 := (List.range 256).foldl (fun a m => bramEdge a s0 draw clks m) s1
  let s3 := (List.range 64).foldl (fun a f => fifoEdge a s0 draw clks f) s2
  if clks.contains (tbClock s0) then tbEdge s3 s0 draw else s3

/-! ## The design's side (R407, R408, R411, R412) -/

/-- The copy of inbound bits that ticks read. -/
def readCopy (s : State) : Map Bool := if s.taf.ptr then s.taf.copy1 else s.taf.copy0

/-- Set the bits of a word in a table of target bits. -/
def putBits (m : Map Bool) (base v : Nat) : Nat → Map Bool
  | 0 => m
  | n + 1 => putBits (mset m false base (v % 2 = 1)) (base + 1) (v / 2) n

/-- The inbound bits of a FIFO at a tick: FULL, or the head word and VALID. -/
def fifoInbound (s : State) (m : Map Bool) (f : Nat) : Map Bool :=
  if ¬ fifoOn s f then m
  else if fifoIn s f then
    let w := fifoWidth s f
    mset (putBits m (fifoIbase s f) ((fifoWords s f).headD 0) w) false (fifoIbase s f + w) (!(fifoWords s f).isEmpty)
  else mset m false (fifoIbase s f) (fifoFull s f)

/-- The inbound target bits as a tick samples them (R73, R408, R411). -/
def sampleInbound (s : State) : State :=
  let m := (List.range 64).foldl (fifoInbound s) (readCopy s)
  let seen := (List.range 64).foldl (fun x f =>
    if fifoOn s f then mset x false f (if fifoIn s f then !(fifoWords s f).isEmpty else fifoFull s f) else x) []
  { s with cyc := { s.cyc with tin := m }, taf := { s.taf with seen := seen } }

/-- The number of `n` outbound bits. -/
def outboundBits (s : State) (base : Nat) : Nat → Nat
  | 0 => 0
  | n + 1 => (mget s.cyc.tout false base).toNat + 2 * outboundBits s (base + 1) n

/-- Action 6 for one FIFO: PUSH or POP. -/
def fifoCommit (s : State) (f : Nat) : State :=
  if ¬ fifoOn s f then s
  else if fifoIn s f then
    if mget s.cyc.tout false (fifoObase s f) ∧ mget s.taf.seen false f then setFifo s f ((fifoWords s f).drop 1) else s
  else
    let w := fifoWidth s f
    if ¬ mget s.cyc.tout false (fifoObase s f + w) then s
    else if mget s.taf.seen false f then addF s (FIFO_PUSH_REFUSED f) 1
    else addF (setFifo s f (fifoWords s f ++ [outboundBits s (fifoObase s f) w])) (FIFO_WORDS f) 1

/-- Action 6 of the commit phase of cycle `n`: outbound bits enter the holding register, and a toggle crosses; a set not
taken yet is overwritten and counted (R407, R411). -/
def passOutbound (s : State) (n : Nat) : State :=
  let s1 := if s.taf.toggle then addF s TOUT_SKIP 1 else s
  (List.range 64).foldl fifoCommit
    { s1 with taf := { s1.taf with hold := s.cyc.tout, holdCyc := n % 256, toggle := true } }

/-- The outbound bits bound to clusters of a partition (R407, R409). -/
def ownedBit (s : State) (p k : Nat) : Bool :=
  let o := mget s.eng.tbOut 0 k
  o != 0 && getF s (TILE_PARTITION (tileOfPc ((o - 1) / 2))) == p

/-- The release of a partial reload sets the outbound bits bound to the partition to 0 (R407). -/
def clearOutbound (s : State) (p : Nat) : State :=
  { s with cyc := { s.cyc with tout := s.cyc.tout.filter (fun e => !ownedBit s p e.1) } }

/-- The interface settings take effect between a commit and the next tick (R417). -/
def refreshTb (s : State) : State :=
  { s with taf := { s.taf with tbRegion := getF s TB_REGION, tbRclk := getF s TB_RCLK, tinAuto := flag s TIN_MODE } }

/-- Every FIFO is emptied (R412). -/
def emptyFifos (s : State) : State := { s with taf := { s.taf with fifo := [], seen := [] } }

/-- Set an output enable; setting FAB_OE clears TIO_DISABLED (R413). -/
def setFabOe (s : State) (b : Bool) : State :=
  let s1 := setFlag s FAB_OE b
  if b then setFlag s1 TIO_DISABLED false else s1

/-- Both output enables are cleared (R413). -/
def clearOutputs (s : State) : State := setFs s [(FAB_OE, 0), (FB_OE, 0)]

/-! ## Rows: the fabric -/

/-- SCRUB: a pass of the scrubber, and what it found (R403). -/
def execScrub (corrected uncorrectable : Bool) (s : State) : Host.Outcome State Fault Refusal :=
  let s1 := if corrected then raiseEv (setFlag s TAF_CFG_CORR true) evTafCorrMem else s
  let s2 := if uncorrectable then raiseEv (setFlag s1 TAF_CFG_UNCORR true) evTafCfgUncorr else s1
  .next (if uncorrectable ∧ flag s OFF_ON_UNCORR then setFabOe s2 false else s2)

/-- FABRIC_CLOCK_EDGE: edges of clock sources at one time, each with its source (R406) and whether it rises; `mhz`: the frequency that
the TCLK pins among them have. The region clocks that rise clock the fabric. -/
def execFabricClockEdge (edges : List (BitVec 4 × Bool)) (mhz : BitVec 16) (s : State) : Host.Outcome State Fault Refusal :=
  let s1 := seeMhz s edges mhz.toNat
  let l := risingClocks s1 edges
  let s2 := moveClocks s1 edges
  .next (if l.isEmpty then s2 else clockEdge s2 l)

/-- TARGET_PIN_INPUT: a level at an input pin. -/
def execTargetPinInput (pin : BitVec 10) (level : Bool) (s : State) : Host.Outcome State Fault Refusal :=
  if pin.toNat < 768 then .next { s with taf := { s.taf with pins := mset s.taf.pins false pin.toNat level } } else .next s

/-- The multiplexer has seen the second falling edge of the new clock. -/
def switchDone (s : State) (clk : Nat) : Bool := match switchOf s clk with | some m => m.held && decide (2 ≤ m.falls) | none => false

/-- MUX_SWITCH_COMPLETE: the multiplexer has seen the second falling edge of the new clock, and follows it. -/
def execMuxSwitchComplete (clk : BitVec 6) (s : State) : Host.Outcome State Fault Refusal :=
  .next (if switchDone s clk.toNat then endSwitch s clk.toNat else s)

/-- MUX_FORCED: the old clock has shown no edge for 1 ms; the multiplexer switches anyway. -/
def execMuxForced (clk : BitVec 6) (s : State) : Host.Outcome State Fault Refusal :=
  if (switchOf s clk.toNat).isSome then .next (endSwitch (setFlag s TAF_MUX_FORCED true) clk.toNat) else .next s

/-- TOUT_TRANSFER: the toggle is seen on a TB_CLK edge; all fabric-side bits change together (R407). -/
def execToutTransfer (s : State) : Host.Outcome State Fault Refusal :=
  if s.taf.toggle ∧ clockRuns s (tbClock s) then
    .next { s with taf := { s.taf with out := s.taf.hold, cycLsb := s.taf.holdCyc, strobe := true, toggle := false } }
  else .next s

/-- TIN_COMMIT: the commit's flip has crossed into the step domain: the pointer names the frozen copy, and TIN_READY
returns (R408). -/
def execTinCommit (s : State) : Host.Outcome State Fault Refusal :=
  if s.taf.flip then .next (setFlag { s with taf := { s.taf with ptr := !s.taf.ptr, flip := false } } TIN_READY true)
  else .next s

/-! ## Fall-back hard blocks (R415, R417) -/

/-- The blocks are 0 and 1 UART, 2 and 3 SPI, 4 and 5 I2C. -/
def fbTx (s : State) (k : Nat) : List Byte := mget s.taf.tx [] k
def fbRx (s : State) (k : Nat) : List Byte := mget s.taf.rx [] k

/-- The levels in STATUS follow the FIFOs. -/
def putFb (s : State) (k : Nat) (tx rx : List Byte) : State :=
  setFs { s with taf := { s.taf with tx := mset s.taf.tx [] k tx, rx := mset s.taf.rx [] k rx } }
    [(FB_TX_LEVEL k, tx.length), (FB_RX_LEVEL k, rx.length)]

/-- Time-clock periods that block `k` takes for one byte. -/
def byteTime (s : State) (k : Nat) : Nat :=
  let div := max 1 (getF s (FB_DIV k))
  if k < 2 then 800 * div else if k < 4 then 80 * div else if flag s (FB_I2C_400 k) then 11250 else 45000

/-- The blocks own their pins, whose supply is good (R414, R415), and drive them (R413). -/
def fbOwns (s : State) : Bool := flag s FB_EN && bankGood s 224
def fbDrives (s : State) : Bool := fbOwns s && flag s FB_OE && !tapTakes s

/-- One time-clock period of a block: the byte at hand leaves when its time is over, and is seen on the pins where the block drives
them. -/
def sendFb (s : State) (k : Nat) : State :=
  match fbTx s k with
  | [] => s
  | b :: rest =>
    if ¬ flag s (FB_ENABLE k) then s
    else
      let n := mget s.taf.left 0 k
      if n = 0 then { s with taf := { s.taf with left := mset s.taf.left 0 k (byteTime s k) } }
      else if n = 1 then
        let s1 := putFb s k rest (fbRx s k)
        let seen := if fbDrives s then [b] else []
        { s1 with taf := { s1.taf with left := mset s1.taf.left 0 k 0, sent := mset s1.taf.sent [] k (mget s1.taf.sent [] k ++ seen) } }
      else { s with taf := { s.taf with left := mset s.taf.left 0 k (n - 1) } }

/-- One period of every fall-back block. -/
def fallbackPeriod (s : State) : State := (List.range 6).foldl sendFb s

/-- Queue a byte for transmission; a full FIFO takes no byte. -/
def fbWrite (s : State) (k : Nat) (v : Byte) : State :=
  if k < 6 ∧ (fbTx s k).length < 16 then putFb s k (fbTx s k ++ [v]) (fbRx s k) else s

/-- Pop a received byte: the data read, and the state after it. An empty FIFO gives an open value. -/
def fbRead (s : State) (k : Nat) : State × Nat :=
  match fbRx s k with
  | [] => (drawFree s, (Config.freeValue 8 s.free).toNat)
  | b :: rest => (putFb s k (fbTx s k) rest, b.toNat)

/-- FALLBACK_DATA_WRITE. -/
def execFallbackDataWrite (k : BitVec 3) (v : Byte) (s : State) : Host.Outcome State Fault Refusal := byHost s (fun a => fbWrite a k.toNat v)

/-- FALLBACK_DATA_READ. -/
def execFallbackDataRead (k : BitVec 3) (s : State) : Host.Outcome State Fault Refusal :=
  byHost s (fun a =>
    if k.toNat < 6 then
      let p := fbRead a k.toNat
      { p.1 with readData := p.2 }
    else { a with readData := 0 })

/-- FALLBACK_RX_BYTE: a byte arrives at the pins of a block that owns them, or an I2C target answers with NAK. -/
def execFallbackRxByte (k : BitVec 3) (b : Byte) (nak : Bool) (s : State) : Host.Outcome State Fault Refusal :=
  let n := k.toNat
  if 6 ≤ n ∨ ¬ fbOwns s ∨ ¬ flag s (FB_ENABLE n) then .next s
  else if nak then (if 4 ≤ n then .next (setFlag s (FB_NAK n) true) else .next s)
  else if 16 ≤ (fbRx s n).length then .next (addF s (FB_RX_DROP n) 1)
  else .next (putFb s n (fbTx s n) (fbRx s n ++ [b]))

/-! ## Commands (R416) -/

/-- 0, 1 or "unchanged". -/
def enableArg (v : Nat) : Bool := decide (v ≤ 1) || v == 0xFF

/-- TAF_OUTPUTS. -/
def cmdTafOutputs : Cmd where
  opcode := 0x0D01
  ringsOnly := false
  length := lenIs 8
  scope := .plain
  right := onlyZero
  params := fun _ q _ => enableArg (par q 0 1) && enableArg (par q 1 1) && zeroPar q 2 6
  ready := always
  run := fun s q _ =>
    let s1 := if par q 0 1 = 0xFF then s else setFabOe s (par q 0 1 == 1)
    okReply (if par q 1 1 = 0xFF then s1 else setFlag s1 FB_OE (par q 1 1 == 1)) []

def execTafOutputs (r : BitVec 5) (p : Packet) (s : State) : Host.Outcome State Fault Refusal := fromRing cmdTafOutputs r p s

/-- The TAF_STATUS register. -/
def tafStatusWord (s : State) : Nat :=
  getF s TAF_CONFIGURED + getF s TIN_READY * 2 + getF s TAF_CFG_CORR * 4 + getF s TAF_CFG_UNCORR * 8 + getF s TAF_MUX_FORCED * 16

/-- TAF_STATUS. -/
def cmdTafStatus : Cmd where
  opcode := 0x0D02
  ringsOnly := false
  length := lenIs 0
  scope := .plain
  right := anyPart
  params := noParams
  ready := always
  run := fun s _ _ =>
    okReply s (leBytes 4 (tafStatusWord s) ++ leBytes 4 (getF s TOUT_SKIP) ++ leBytes 4 (getF s TIN_REFUSED) ++ leBytes 4 0)

def execTafStatus (r : BitVec 5) (p : Packet) (s : State) : Host.Outcome State Fault Refusal := fromRing cmdTafStatus r p s

/-- TAF_CLKSEL: OK once the switch completes; BUSY while that multiplexer is switching. -/
def cmdTafClksel : Cmd where
  opcode := 0x0D03
  ringsOnly := false
  length := lenIs 8
  scope := .plain
  right := onlyZero
  params := fun _ q _ => decide (par q 0 1 ≤ 15) && decide (par q 1 1 ≤ 3) && decide (par q 2 1 ≤ 3) && zeroPar q 3 5
  ready := fun s q _ => busyUnless (switchOf s (rclkNo (par q 0 1) (par q 1 1))).isNone
  run := fun s q _ => .pending s (fun a id => setSwitch a (rclkNo (par q 0 1) (par q 1 1)) (some ⟨par q 2 1, id, false, 0⟩))

def execTafClksel (r : BitVec 5) (p : Packet) (s : State) : Host.Outcome State Fault Refusal := fromRing cmdTafClksel r p s

/-- TAF_CLKCFG: BUSY while a multiplexer selects the divider. -/
def cmdTafClkcfg : Cmd where
  opcode := 0x0D04
  ringsOnly := false
  length := lenIs 8
  scope := .plain
  right := onlyZero
  params := fun _ q _ => decide (par q 0 1 ≤ 15) && decide (par q 1 1 ≤ 3) && decide (par q 2 1 ≤ 15) && zeroPar q 4 4
  ready := fun s q _ => busyUnless (!dividerUsed s (par q 0 1) (par q 1 1))
  run := fun s q _ => okReply (setDivider s (par q 0 1) (par q 1 1) (par q 2 1 + par q 3 1 * 16)) []

def execTafClkcfg (r : BitVec 5) (p : Packet) (s : State) : Host.Outcome State Fault Refusal := fromRing cmdTafClkcfg r p s

/-- TAF_FIFO_STATS. -/
def cmdTafFifoStats : Cmd where
  opcode := 0x0D05
  ringsOnly := false
  length := lenIs 8
  scope := .plain
  right := onlyZero
  params := fun _ q _ => decide (par q 0 1 ≤ 63) && zeroPar q 1 7
  ready := always
  run := fun s q _ =>
    let f := par q 0 1
    okReply s (leBytes 4 (fifoWords s f).length ++ leBytes 4 (getF s (FIFO_PUSH_REFUSED f)) ++ leBytes 4 (getF s (FIFO_OVERFLOW f))
      ++ leBytes 4 (getF s (FIFO_WORDS f)))

def execTafFifoStats (r : BitVec 5) (p : Packet) (s : State) : Host.Outcome State Fault Refusal := fromRing cmdTafFifoStats r p s

end Sys2Proof.Machine
end

