-- ==== Sys2Proof/Machine/Cluster.lean ====
section
/-!
DEFINITION. The instruction words of the Boolean processors: one meaning per row NOP to TPI and ILLEGAL_OP
(R54, R57 to R76), and the decision of a speculative block (R124, R125).
-/
namespace Sys2Proof.Machine
open Sys2Proof Reg

/-- Bit `i` of a truth table as a net. -/
def ttBit (tt i : Nat) : Bool := bitOf tt i

/-- The index of EVAL: D*8 + C*4 + B*2 + A (R57). -/
def ttIndex (a b c d : Bool) : Nat := d.toNat * 8 + c.toNat * 4 + b.toNat * 2 + a.toNat

/-- A result goes to DST and to SND, CAP and CNS. -/
def putResult (s : State) (w : Site) (word : BitVec 80) (v : Bool) : State :=
  finishWord (writeSlot s w.pc.toNat w.half (dstOf word) v) w v

/-- NOP: nothing is read, written or held (R76). -/
def execNop (w : Site) (s : State) : Host.Outcome State Fault Refusal :=
  issueWord s w (fun word => opcOf word == opNop) (fun s1 _ => s1)

/-- EVAL: DST takes TT[D*8 + C*4 + B*2 + A] (R57). -/
def execEval (w : Site) (s : State) : Host.Outcome State Fault Refusal :=
  issueWord s w (fun word => opcOf word == opEval) (fun s1 word =>
    let n := fun x => readNet s1 w.pc.toNat w.half x
    putResult s1 w word (ttBit (ttOf word) (ttIndex (n (aOf word)) (n (bOf word)) (n (cOf word)) (n (dOf word)))))

/-- EVALM: with net D 1, DST takes TT[C*4 + B*2 + A]; else DST keeps its value, which is the result bit (R58). -/
def execEvalm (w : Site) (s : State) : Host.Outcome State Fault Refusal :=
  issueWord s w (fun word => opcOf word == opEvalm) (fun s1 word =>
    let n := fun x => readNet s1 w.pc.toNat w.half x
    if n (dOf word) then
      putResult s1 w word (ttBit (ttOf word) (ttIndex (n (aOf word)) (n (bOf word)) (n (cOf word)) false))
    else finishWord s1 w (n (dstOf word)))

/-- LDS: DST takes the committed state bit (R59). -/
def execLds (w : Site) (s : State) : Host.Outcome State Fault Refusal :=
  issueWord s w (fun word => opcOf word == opLds) (fun s1 word =>
    putResult s1 w word (mget s1.eng.cur false (stateKey s1 w.pc.toNat w.half (saddrOf word))))

/-- STS: the next buffer takes net A (R60). -/
def execSts (w : Site) (s : State) : Host.Outcome State Fault Refusal :=
  issueWord s w (fun word => opcOf word == opSts) (fun s1 word =>
    let v := readNet s1 w.pc.toNat w.half (aOf word)
    finishWord { s1 with eng := { s1.eng with
      nxt := mset s1.eng.nxt false (stateKey s1 w.pc.toNat w.half (saddrOf word)) v } } w v)

/-- A bit of a register set to a value. -/
def setBit {n : Nat} (x : BitVec n) (i : Nat) (v : Bool) : BitVec n :=
  if v then x ||| BitVec.ofNat n (2 ^ i) else x &&& ~~~ BitVec.ofNat n (2 ^ i)

/-- The port's registers with this step's first write: what they held before the step is kept for its MPG (R157). -/
def stampPort (m : MmpPort) (step : Nat) : MmpPort :=
  if m.stamp = step + 1 then m else { m with stamp := step + 1, addr0 := m.addr, data0 := m.data }

/-- MPA with SEL 0: net A into one bit of the address register (R64). -/
def execMpaAddress (w : Site) (s : State) : Host.Outcome State Fault Refusal :=
  issueWord s w (fun word => opcOf word == opMpa && !selOf word) (fun s1 word =>
    let v := readNet s1 w.pc.toNat w.half (aOf word)
    let t := tileOfPc w.pc.toNat
    let m := stampPort (mmpAt s1 t (portOf word)) w.step.toNat
    finishWord (setMmp s1 t (portOf word) { m with addr := setBit m.addr (bitIdxOf word) v }) w v)

/-- MPA with SEL 1: net A into one bit of the data register (R64). -/
def execMpaData (w : Site) (s : State) : Host.Outcome State Fault Refusal :=
  issueWord s w (fun word => opcOf word == opMpa && selOf word) (fun s1 word =>
    let v := readNet s1 w.pc.toNat w.half (aOf word)
    let t := tileOfPc w.pc.toNat
    let m := stampPort (mmpAt s1 t (portOf word)) w.step.toNat
    finishWord (setMmp s1 t (portOf word) { m with data := setBit m.data (bitIdxOf word) v }) w v)

/-- The access an MPG starts: the registers as they stand after the writes of all earlier steps (R65, R157). -/
def mpgAccess (m : MmpPort) (w : Site) (word : BitVec 80) (write : Bool) : MmpAccess :=
  let now := m.stamp = w.step.toNat + 1
  ⟨seqOf word, if now then m.addr0 else m.addr, if now then m.data0 else m.data, write, w.pc.toNat, w.half,
    w.bp.toNat, w.step.toNat, false, false⟩

/-- MPG with SEL 0: a read enters the request queue under SEQ, or, with the enable 0, entry SEQ is full of zeros at
once (R65, R158, R178). -/
def execMpgRead (w : Site) (s : State) : Host.Outcome State Fault Refusal :=
  issueWord s w (fun word => opcOf word == opMpg && !selOf word) (fun s1 word =>
    let t := tileOfPc w.pc.toNat
    let p := portOf word
    let m := mmpAt s1 t p
    let m1 := { m with usedRead := m.usedRead ++ [seqOf word] }
    let s2 :=
      if readNet s1 w.pc.toNat w.half (aOf word) then
        addF (setMmp s1 t p { m1 with requests := m1.requests ++ [mpgAccess m w word false] }) (MMP_READS t p) 1
      else setMmp s1 t p { m1 with results := m1.results ++ [(seqOf word, 0)] }
    consumeOperands s2 w)

/-- MPG with SEL 1: with the enable 1 a write is placed on the port's write queue, and its request in the request
queue; on a read-only port it is dropped and counted (R65, R158, R166). -/
def execMpgWrite (w : Site) (s : State) : Host.Outcome State Fault Refusal :=
  issueWord s w (fun word => opcOf word == opMpg && selOf word) (fun s1 word =>
    let t := tileOfPc w.pc.toNat
    let p := portOf word
    let m := mmpAt s1 t p
    let m1 := { m with usedWrite := m.usedWrite ++ [seqOf word] }
    let a := mpgAccess m w word true
    let s2 :=
      if !readNet s1 w.pc.toNat w.half (aOf word) then setMmp s1 t p m1
      else if flag s1 (MMP_RO t p) then addF (setMmp s1 t p m1) (MMP_WDROP t p) 1
      else setMmp s1 t p { m1 with requests := m1.requests ++ [a], writes := m1.writes ++ [a] }
    consumeOperands s2 w)

/-- MPR: DST takes one bit of result-buffer entry SEQ; while the entry is empty the step holds (R66). -/
def execMpr (w : Site) (s : State) : Host.Outcome State Fault Refusal :=
  issueWord s w (fun word => opcOf word == opMpr) (fun s1 word =>
    let m := mmpAt s1 (tileOfPc w.pc.toNat) (portOf word)
    putResult s1 w word (((m.results.lookup (seqOf word)).getD 0).getLsbD (bitIdxOf word)))

/-- The message width of port `i`, from the queue it is bound to (R68, R349). -/
def msgWidth (s : State) (i : Nat) : Nat := getF s (Q_WIDTH_M1 (getF s (P_QBASE i))) + 1

/-- The message bit MSR reads: 0 without a current message or at and above the width (R68). -/
def msgBit (s : State) (i b : Nat) : Bool :=
  match (msgAt s i).cur with
  | some (_, r) => flag s (P_VALID i) && decide (b < msgWidth s i) && r.data.getLsbD b
  | none => false

/-- MSR: DST takes one bit of the current inbound message (R68). -/
def execMsr (w : Site) (s : State) : Host.Outcome State Fault Refusal :=
  issueWord s w (fun word => opcOf word == opMsr) (fun s1 word =>
    putResult s1 w word (msgBit s1 (tileOfPc w.pc.toNat * 16 + portOf word) (bitIdxOf word)))

/-- MSW: net A into one bit of the outbound message; a bit at or above the width is left alone (R69). -/
def execMsw (w : Site) (s : State) : Host.Outcome State Fault Refusal :=
  issueWord s w (fun word => opcOf word == opMsw) (fun s1 word =>
    let v := readNet s1 w.pc.toNat w.half (aOf word)
    let i := tileOfPc w.pc.toNat * 16 + portOf word
    let m := msgAt s1 i
    let s2 := if bitIdxOf word < msgWidth s1 i then setMsg s1 i { m with out := setBit m.out (bitIdxOf word) v } else s1
    finishWord s2 w v)

/-- MSP with SEL 0: with net A 1, a pop of the current message is requested for the commit (R70). -/
def execMspPop (w : Site) (s : State) : Host.Outcome State Fault Refusal :=
  issueWord s w (fun word => opcOf word == opMsp && !selOf word) (fun s1 word =>
    let i := tileOfPc w.pc.toNat * 16 + portOf word
    let s2 := if readNet s1 w.pc.toNat w.half (aOf word) then setMsg s1 i { msgAt s1 i with pop := true } else s1
    consumeOperands s2 w)

/-- MSP with SEL 1: with net A 1, a push of the outbound message is requested for the commit (R70). -/
def execMspPush (w : Site) (s : State) : Host.Outcome State Fault Refusal :=
  issueWord s w (fun word => opcOf word == opMsp && selOf word) (fun s1 word =>
    let i := tileOfPc w.pc.toNat * 16 + portOf word
    let s2 := if readNet s1 w.pc.toNat w.half (aOf word) then setMsg s1 i { msgAt s1 i with push := true } else s1
    consumeOperands s2 w)

/-- A mismatch fills the tile's record: it is empty, or it holds one of this cycle that this one precedes, by step clock, cluster and BP. -/
def fillsAssert (s : State) (t : Nat) (moment : Nat × Nat) : Bool :=
  !flag s (ASSERT_VALID t) || (match mget s.cyc.assertAt none t with | some old => pairBefore moment old | none => false)

/-- A CHK mismatch in step clock `c`: the tile's count, its record, and its event once per cycle (R74). -/
def mismatch (s : State) (w : Site) : State :=
  let pc := w.pc.toNat
  let t := tileOfPc pc
  let moment := (issueClock s pc w.half w.step.toNat, pc % 16 * 64 + w.bp.toNat)
  let s1 := addF s (ASSERT_COUNT t) 1
  let s2 := if fillsAssert s t moment then
      setFs { s1 with cyc := { s1.cyc with assertAt := mset s1.cyc.assertAt none t (some moment) } } [(ASSERT_VALID t, 1),
        (ASSERT_CYCLE t, getF s CYCLE_NUM), (ASSERT_LOCATION t, locOf s pc w.half w.bp.toNat w.step.toNat)]
    else s1
  if mget s2.cyc.asserted false t then s2
  else raiseEv { s2 with cyc := { s2.cyc with asserted := mset s2.cyc.asserted false t true } } (tileEv t 0)

/-- CHK: a mismatch when A differs from B and C is 1 (R74). -/
def execChk (w : Site) (s : State) : Host.Outcome State Fault Refusal :=
  issueWord s w (fun word => opcOf word == opChk) (fun s1 word =>
    let n := fun x => readNet s1 w.pc.toNat w.half x
    let v := (n (aOf word) != n (bOf word)) && n (cOf word)
    finishWord (if v then mismatch s1 w else s1) w v)

/-- The first STOPC of the cycle: the earliest in step clocks, then the one with the lowest location word (R75). -/
def firstStopc (old : Option (Nat × Nat)) (new : Nat × Nat) : Nat × Nat :=
  match old with
  | some x => if pairBefore new x then new else x
  | none => new

/-- STOPC: with net A 1, a stop after this cycle's commit is requested; the first one's location is kept (R75). -/
def execStopc (w : Site) (s : State) : Host.Outcome State Fault Refusal :=
  issueWord s w (fun word => opcOf word == opStopc) (fun s1 word =>
    let v := readNet s1 w.pc.toNat w.half (aOf word)
    let moment := (issueClock s1 w.pc.toNat w.half w.step.toNat, locOf s1 w.pc.toNat w.half w.bp.toNat w.step.toNat)
    finishWord (if v then { s1 with cyc := { s1.cyc with stopc := some (firstStopc s1.cyc.stopc moment) } } else s1) w v)

/-- TPO: net A is recorded as the value of an outbound target bit (R72). -/
def execTpo (w : Site) (s : State) : Host.Outcome State Fault Refusal :=
  issueWord s w (fun word => opcOf word == opTpo) (fun s1 word =>
    let v := readNet s1 w.pc.toNat w.half (aOf word)
    finishWord { s1 with cyc := { s1.cyc with
      driven := mset s1.cyc.driven none (portOf word * 256 + bitIdxOf word) (some v) } } w v)

/-- TPI: DST takes the inbound target bit sampled at the tick (R73). -/
def execTpi (w : Site) (s : State) : Host.Outcome State Fault Refusal :=
  issueWord s w (fun word => opcOf word == opTpi) (fun s1 word =>
    putResult s1 w word (mget s1.cyc.tin false (portOf word * 256 + bitIdxOf word)))

/-- A word with an illegal opcode issues, executes nothing and raises ILLEGAL_OP (R54). -/
def execIllegalOp (w : Site) (s : State) : Host.Outcome State Fault Refusal :=
  issueWord s w (fun word => illegalOpc (opcOf word)) (fun s1 _ => s1)

/-! ## Speculative blocks (R124, R125) -/

/-- A word fetched for a cancelled block: a single-bit error is scrubbed and counted with the commit, a double-bit
error counts as latent (R46). -/
def cancelFetch (s : State) (pc : Nat) (half : Bool) (step : Nat) : List Nat → State
  | [] => s
  | bp :: r =>
    let k := wkey s pc half bp step
    let t := tileOfPc pc
    let e := mget s.eng.imemErr 0 k
    let s1 :=
      if e = 1 then { s with eng := { s.eng with imemErr := mset s.eng.imemErr 0 k 3 } }
      else if e = 2 then raiseEv (addF s (LATENT_COUNT t) 1) (tileEv t 1)
      else s
    cancelFetch s1 pc half step r

/-- The first step the sequencer would fetch after block `j`: of the next block that could run (R125). -/
def nextFetch (s : State) (pc : Nat) (half : Bool) (j : Nat) : Option Nat :=
  match (blockIdx s pc half).find? (fun i => decide (j < i) && blockTaken s pc half i != some false) with
  | some i => some (blkFirst (blockAt s pc half i))
  | none => none

/-- The cluster reaches a block gated by a local slot: the block is decided by the slot's value, a wrong prediction
cancels the fetched words and costs the physical cluster two step clocks, and the prediction becomes the outcome. Where nothing
could have been fetched, no CANCEL packet is formed (DESIGN CHOICE 111). -/
def execSpeculativeDecision (pc : BitVec 11) (half : Bool) (block : BitVec 6) (s : State) :
    Host.Outcome State Fault Refusal :=
  let p := pc.toNat
  let j := block.toNat
  let b := blockAt s p half j
  let h := halfOf s p half
  let c := issueClock s p half (blkFirst b)
  if mayGoOn s p c ∧ halfRuns s p half ∧ j < progBlocks (progOf s p half) ∧ speculative b
      ∧ (h.decided.lookup j).isNone ∧ nextStep h ≤ blkFirst b ∧ standsBefore s p half (blkFirst b) ∧ inTurn s p half (blkFirst b) then
    let taken := gateOf b (readSlot s p (blkSlot b))
    let key := blockKey p half j
    let guess := mget s.eng.predict true key
    let s1 := setHalf s p half { h with decided := (j, taken) :: h.decided }
    let s2 := { s1 with eng := { s1.eng with predict := mset s1.eng.predict true key taken } }
    let s3 :=
      if guess = taken then s2
      else
        let fetched := if guess then some (blkFirst b) else nextFetch s p half j
        let s' := noteWait (loseClocks (addF s2 (BLOCK_CANCEL (dieOfPc p)) 1) p 2) (dieOfPc p) (c + 2)
        match fetched with
        | some x =>
          let word := if foldedAt s p then 2 * x + half.toNat else x
          cancelFetch (traceCancel s' p half j word) p half x (List.range 64)
        | none => s'
    .next (traceBlock (if taken then s3 else addF s3 (BLOCK_SKIP (dieOfPc p)) 1) p half j taken (some c))
  else .next s

end Sys2Proof.Machine
end

