-- ==== Sys2Proof/Machine/Agent.lean ====
section
/-!
DEFINITION. The tile service agent as commands use it (R32, R33, R84 to R88, R424, R426, R467 to R472): PEEK, DEPOSIT,
FORCE, RELEASE and FORCE_LIST, the writes held to action 4 and the patch groups.
-/
namespace Sys2Proof.Machine
open Sys2Proof Reg

/-! ## Logical clusters (R185, R189) -/

/-- The half that runs logical cluster `lc` of partition `p`, as cluster*2 + half. -/
def findLc (s : State) (p lc : Nat) : Option Nat :=
  (s.eng.prog.find? (fun e => progEnabled e.2 && mget s.eng.lc 0 e.1 == lc
    && getF s (TILE_PARTITION (tileOfPc (e.1 / 2))) == p)).map Prod.fst

/-- The physical cluster and half of a half number. -/
def pcOf (k : Nat) : Nat := k / 2
def halfB (k : Nat) : Bool := k % 2 == 1

/-- A slot number of a logical cluster lies within its limits (R179). -/
def slotInLc (folded : Bool) (slot : Nat) : Bool :=
  if folded then slot < 0x300 || (0x600 ≤ slot && slot < 0x6E0) || (0x7C0 ≤ slot && slot < 0x7D8) || (0x7E0 ≤ slot && slot < 0x800)
  else slot < 0x800

/-- The physical slot of a slot of a logical cluster (R189). -/
def physSlot (b : Bool) (slot : Nat) : Nat :=
  if ¬ b then slot
  else if slot < 0x300 then slot + 0x300
  else if 0x600 ≤ slot ∧ slot < 0x6E0 then slot + 0xE0
  else if 0x7D0 ≤ slot ∧ slot < 0x7D8 then slot + 8
  else slot

/-- The slots of a range. -/
def slotRange (first count : Nat) : List Nat := (List.range count).map (fun i => first + i)

/-! ## The address block (R467) -/

def abKind (q : Request) : Nat := par q 0 1
def abPort (q : Request) : Nat := par q 1 1
def abLc (q : Request) : Nat := par q 2 2
def abCount (q : Request) : Nat := par q 4 2
def abAddr (q : Request) : Nat := par q 8 8

/-- The half that the block names. -/
def abHalf (s : State) (q : Request) : Option Nat := findLc s (scPart q) (abLc q)

/-- The port of the tile for a port of a logical tile. -/
def physPort (b : Bool) (p : Nat) : Nat := if b then p + 16 else p

/-- The tile is neither gated nor held in reset. -/
def tileReachable (s : State) (t : Nat) : Bool := !flag s (TILE_GATED t) && !flag s (TILE_IN_RESET t)

/-- The tile's stop is fenced: a request to it ends with BUSY (R480, R483). -/
def tileFenced (s : State) (t : Nat) : Bool := portClosed s false t

/-- The address block is in range for a half. -/
def abRange (s : State) (q : Request) (k : Nat) : Bool :=
  let folded := foldedAt s (pcOf k)
  let t := tileOfPc (pcOf k)
  let n := abCount q
  let kind := abKind q
  if kind = 3 then
    let p := physPort (halfB k) (abPort q)
    n == 0 && decide (abPort q < if folded then 16 else 32) && (getF s (MMP_BIND t p) == 1 || getF s (MMP_BIND t p) == 2)
      && decide (abAddr q ≤ getF s (MMP_DEPTH_M1 t p)) && inRange s t p (abAddr q)
  else
    abPort q == 0 && decide (1 ≤ n) && decide (n ≤ 256) &&
      (if kind = 0 then decide (abAddr q + n ≤ 0x800) && (slotRange (abAddr q) n).all (slotInLc folded)
       else if kind = 1 then decide (abAddr q + n ≤ if folded then 224 else 448)
       else kind == 2 && decide (abAddr q + n ≤ if folded then 0x8000 else 0x10000))

/-- The parameters of an address block are in range. -/
def abOk (s : State) (q : Request) : Bool :=
  zeroPar q 6 2 && decide (abLc q < 2048) &&
    (match abHalf s q with
     | some k => tileReachable s (tileOfPc (pcOf k)) && abRange s q k
     | none => false)

/-- The block names a FAR word. -/
def abFar (s : State) (q : Request) : Bool :=
  abKind q == 3 && (match abHalf s q with
    | some k => getF s (MMP_BIND (tileOfPc (pcOf k)) (physPort (halfB k) (abPort q))) == 2
    | none => false)

/-! ## Sealed boundaries (R424, R426) -/

/-- The boundary of partition `p` lists an item of a kind of logical cluster `lc`. -/
def inBoundary (s : State) (p kind lc index saddr : Nat) : Bool :=
  (mget s.sec.boundary [] p).any (fun e =>
    let v := e.toNat
    bitsOf v 0 3 == kind && bitsOf v 3 7 * 16 + bitsOf v 10 4 == lc && bitsOf v 14 12 == index && bitsOf v 26 16 == saddr)

/-- A slot of a sealed partition may be read: a NET slot, or a RECV_IN receive slot. -/
def slotListed (s : State) (p lc slot : Nat) : Bool :=
  if slot < 0x600 then inBoundary s p 0 lc slot 0
  else if slot < 0x7C0 then inBoundary s p 3 lc (slot - 0x600) 0
  else false

/-- A PEEK or DEPOSIT stays within the boundary of a sealed partition. -/
def abListed (s : State) (q : Request) : Bool :=
  let p := scPart q
  !flag s (SEALED p) ||
    (if abKind q = 0 then (slotRange (abAddr q) (abCount q)).all (slotListed s p (abLc q))
     else if abKind q = 1 then (slotRange (abAddr q) (abCount q)).all (fun o => inBoundary s p 3 (abLc q) o 0)
     else if abKind q = 2 then (slotRange (abAddr q) (abCount q)).all (fun a => inBoundary s p 1 (abLc q) 0 a)
     else false)

/-- A right on the target, DEBUG_MEM as well for a FAR word, and the sealed boundary. -/
def abRight (right : Nat) : State → Request → Nat → Bool := fun s q r =>
  holdsRight s r (scPart q) right && (!abFar s q || holdsRight s r (scPart q) rtDebugMem) && abListed s q

/-! ## Reading and writing words (R170, R436, R468, R469) -/

/-- The cycle whose start the values of the last commit are. -/
def cycleNow (s : State) : Nat := getF s CYCLE_NUM + (flag s IN_COMMIT).toNat

/-- A command's FAR access fails its tag: the alarm of class 2. -/
def commandAlarm (s : State) (t p w : Nat) : State :=
  secAlarm s alTag 2 (getF s (TILE_PARTITION t)) (t / 32) (farByte s t p w / 64)

/-- A failed access of the agent: what is counted, and the status. -/
def agentFailure (s : State) (t p w : Nat) (e : ReadErrorKind) : State × Nat :=
  match e with
  | .tagFail => (commandAlarm s t p w, rsDataAuth)
  | _ =>
    if onDie s t p then (raiseEv (addF s (LATENT_COUNT t) 1) (tileEv t 1), rsDataUncorr)
    else (addF s (HBM_UNCORR (t / 32)) 1, rsDataUncorr)

/-- A FAR word outside the region of the tile's partition: the inline crypto engine refuses the access (R153, R438). -/
def agentRefused (s : State) (t p w : Nat) : Bool := !onDie s t p && !farAllowed s t p w

/-- Deposit a model memory word; a read half that fails writes nothing. -/
def depositWord (s : State) (t p w v : Nat) (err : ReadErrorKind) : State × Nat :=
  if agentRefused s t p w then (refuseRights s, rsNoRight)
  else if onDie s t p ∧ 64 ≤ swidth s t p then (writeModel (clearRows s (rowsOf s t p w)) t p w v, rsOk)
  else
    let e := foundError s t p w err
    if isFailure e then agentFailure s t p w e
    else
      let s1 := noteCorrected s t p w e
      (writeModel (if onDie s t p then clearRows s1 (rowsOf s t p w) else s1) t p w v, rsOk)

/-- Set state bits of a cluster. -/
def depositBits (s : State) (pc : Nat) (bits : List (Nat × Bool)) : State :=
  { s with eng := { s.eng with cur := bits.foldl (fun m b => mset m false (pc * 65536 + b.1) b.2) s.eng.cur } }

/-- Apply one write of the agent. -/
def applyHeld (s : State) (h : HeldWrite) : State × Nat :=
  match h with
  | .state pc bits => (depositBits s pc bits, rsOk)
  | .word t p w v => depositWord s t p w v .none
  | .block k v => ({ s with eng := { s.eng with block := mset s.eng.block 0 k v } }, rsOk)
  | .prog k v => ({ s with eng := { s.eng with prog := mset s.eng.prog 0 k v } }, rsOk)

/-- Apply held writes in order; each answers its command with the first cycle that sees it. -/
def applyHeldList (s : State) (cycle : Nat) : List (Nat × HeldWrite) → State
  | [] => s
  | (call, h) :: r =>
    let p := applyHeld s h
    applyHeldList (finalReply p.1 call p.2 (if p.2 = rsOk then leBytes 8 cycle else [])) cycle r

/-- Action 4, held writes: at most 64 per tile, in order of arrival (R33). -/
def applyTiles (s : State) (cycle : Nat) : List (Nat × List (Nat × HeldWrite)) → State
  | [] => s
  | (t, l) :: r =>
    let s1 := { s with cyc := { s.cyc with held := mset s.cyc.held [] t (l.drop 64) } }
    applyTiles (applyHeldList s1 cycle (l.take 64)) cycle r

/-- Hold a write of a tile. -/
def holdWrite (s : State) (t call : Nat) (h : HeldWrite) : State :=
  { s with cyc := { s.cyc with held := mset s.cyc.held [] t (mget s.cyc.held [] t ++ [(call, h)]) } }

/-! ## PEEK and DEPOSIT -/

/-- The physical slots a PEEK of kind 0 or 1 reads. -/
def peekSlots (q : Request) (k : Nat) : List Nat :=
  if abKind q = 0 then (slotRange (abAddr q) (abCount q)).map (physSlot (halfB k))
  else (slotRange (abAddr q) (abCount q)).map (fun o => 0x600 + o + (if halfB k then 224 else 0))

/-- The state bits that a block names, as a number. -/
def stateBits (s : State) (pc : Nat) (half : Bool) (a : Nat) : Nat → Nat
  | 0 => 0
  | n + 1 => (mget s.eng.cur false (stateKey s pc half a)).toNat + 2 * stateBits s pc half (a + 1) n

/-- A PEEK of kind 2 or 3. -/
def peekCommitted (s : State) (q : Request) (k : Nat) (err : ReadErrorKind) : Answer :=
  let pc := pcOf k
  if abKind q = 2 then okReply s (peekReply (cycleNow s) false (stateBits s pc (halfB k) (abAddr q) (abCount q)))
  else
    let t := tileOfPc pc
    let p := physPort (halfB k) (abPort q)
    let e := foundError s t p (abAddr q) err
    if agentRefused s t p (abAddr q) then .final (refuseRights s) rsNoRight []
    else if isFailure e then
      let f := agentFailure s t p (abAddr q) e
      .final f.1 f.2 []
    else okReply (noteCorrected s t p (abAddr q) e) (peekReply (cycleNow s) false (readModel s t p (abAddr q)))

/-- PEEK; `err` is what a read of a model memory word finds beside the marks of the state. -/
def cmdPeek (err : ReadErrorKind) : Cmd where
  opcode := 0x0501
  ringsOnly := false
  length := lenIs 16
  scope := .target
  right := abRight rtObserve
  params := fun s q _ => abOk s q
  ready := fun s q _ => busyUnless (!(match abHalf s q with | some k => tileFenced s (tileOfPc (pcOf k)) | none => false))
  run := fun s q _ =>
    let k := (abHalf s q).getD 0
    if 2 ≤ abKind q then peekCommitted s q k err
    else
      let full := abKind q == 1
      let l := peekSlots q k
      if runState s = stRunning then
        .pending s (fun a id => { a with ctl := { a.ctl with peeks := a.ctl.peeks ++ [⟨id, pcOf k, full, l⟩] } })
      else
        let cut := runState s == stFaulted || runState s == stFrozen
      okReply s (peekReply (getF s CYCLE_NUM) cut (peekBits s cut (pcOf k) full l))

def execPeek (r : BitVec 5) (p : Packet) (err : ReadErrorKind) (s : State) : Host.Outcome State Fault Refusal :=
  fromRing (cmdPeek err) r p s

/-- The write that a DEPOSIT makes. -/
def depositOf (s : State) (q : Request) (k : Nat) : HeldWrite :=
  let v := par q 16 32
  if abKind q = 2 then
    .state (pcOf k) ((List.range (abCount q)).map (fun i =>
      (stateKey s (pcOf k) (halfB k) (abAddr q + i) - pcOf k * 65536, bitOf v i)))
  else .word (tileOfPc (pcOf k)) (physPort (halfB k) (abPort q)) (abAddr q) v

/-- DEPOSIT: held while the device runs, at once otherwise. -/
def cmdDeposit (err : ReadErrorKind) : Cmd where
  opcode := 0x0502
  ringsOnly := false
  length := lenIs 48
  scope := .target
  right := abRight rtForce
  params := fun s q _ => decide (2 ≤ abKind q) && abOk s q
  ready := fun s q _ => busyUnless (!(match abHalf s q with | some k => tileFenced s (tileOfPc (pcOf k)) | none => false))
  run := fun s q _ =>
    let k := (abHalf s q).getD 0
    let h := depositOf s q k
    if runState s = stRunning then .pending s (fun a id => holdWrite a (tileOfPc (pcOf k)) id h)
    else
      let p := match h with
        | .word t port w v => depositWord s t port w v err
        | _ => applyHeld s h
      .final p.1 p.2 (if p.2 = rsOk then leBytes 8 (getF s CYCLE_NUM) else [])

def execDeposit (r : BitVec 5) (p : Packet) (err : ReadErrorKind) (s : State) : Host.Outcome State Fault Refusal :=
  fromRing (cmdDeposit err) r p s

/-! ## Patch groups (R85 to R88, R470, R471) -/

/-- The tile of an instruction word number. -/
def tileOfWord (key : Nat) : Nat := key / 131072 / 16

/-- A service-agent read of the instruction store: the corrected word, and the check status 0 clean, 1 corrected, 2 uncorrectable
(R45). The manual does not say what an uncorrectable word reads as: a free value. -/
def readImem (s : State) (key : Nat) : BitVec 80 × Nat :=
  match mget s.eng.imemErr 0 key with
  | 0 => (mget s.eng.imem 0 key, 0)
  | 2 => (Config.brokenWord s.free key, 2)
  | _ => (mget s.eng.imem 0 key, 1)

/-- The word numbers of a half whose words need not be NOPs without an error. -/
def listedWords (s : State) (k : Nat) : List Nat :=
  ((s.eng.imem.map Prod.fst ++ (s.eng.imemErr.map Prod.fst).filter (fun x => mget s.eng.imem 0 x == 0))).filter (fun x =>
    x / 131072 == pcOf k && (!foldedAt s (pcOf k) || (x % 2 == 1) == halfB k))

/-- The instruction words of a half that write local slot `slot` (physical), as the service agent reads them. -/
def writersOfSlot (s : State) (k slot : Nat) : List (Nat × BitVec 80) :=
  ((listedWords s k).map (fun x => (x, (readImem s x).1))).filter (fun e => writesDst e.2 && dstOf e.2 == slot)

/-- The original of a word: that of the patch table where it is forced. -/
def originalOf (s : State) (key : Nat) (w : BitVec 80) : BitVec 80 :=
  match (s.ctl.forced.flatMap (fun f => f.words)).find? (fun x => x.key == key) with
  | some x => x.orig
  | none => w

/-- The forced form of a word (R88, R470). -/
def forcedWord (w : BitVec 80) (v : Bool) : BitVec 80 :=
  let n := w.toNat
  let kept := if opcOf w = opEval ∨ opcOf w = opEvalm then bitsOf n 16 59 * 2 ^ 16
    else bitsOf n 61 14 * 2 ^ 61 + 0x7C0 * (2 ^ 50 + 2 ^ 39 + 2 ^ 28 + 2 ^ 17)
  BitVec.ofNat 80 (opEval * 2 ^ 75 + kept + (if v then 0xFFFF else 0))

/-- The words that a FORCE of one slot patches. -/
def forceWords (s : State) (k slot : Nat) (v : Bool) : List ForcedWord :=
  (writersOfSlot s k slot).map (fun e => ⟨e.1, originalOf s e.1 e.2, forcedWord (originalOf s e.1 e.2) v⟩)

/-- The entries of a FORCE or RELEASE: (LC, slot). -/
def forceSlots (q : Request) : List (Nat × Nat) :=
  (List.range (par q 0 1)).map (fun i => (par q (8 + 4 * i) 2, par q (10 + 4 * i) 2))

/-- An entry names a local slot of a logical cluster of the target. -/
def forceSlotOk (s : State) (p : Nat) (e : Nat × Nat) : Bool :=
  match findLc s p e.1 with
  | some k => tileReachable s (tileOfPc (pcOf k)) && decide (e.2 < if foldedAt s (pcOf k) then 0x300 else 0x600)
  | none => false

/-- The table entry that a FORCE makes of one slot. -/
def forceEntry (s : State) (p : Nat) (v : Bool) (e : Nat × Nat) : Forced :=
  let k := (findLc s p e.1).getD 0
  ⟨p, e.1, e.2, v, forceWords s k (physSlot (halfB k) e.2) v, true, false⟩

/-- Words of a list that lie in tile `t`. -/
def wordsInTile (l : List (Nat × BitVec 80)) (t : Nat) : Nat := (l.filter (fun w => tileOfWord w.1 == t)).length

/-- No tile gets more than 256 words. -/
def fitsShadow (l : List (Nat × BitVec 80)) : Bool := l.all (fun w => decide (wordsInTile l (tileOfWord w.1) ≤ 256))

/-- Order of the patch table: partition, logical cluster, slot. -/
def forcedKey (f : Forced) : Nat := (f.part * 2048 + f.lc) * 2048 + f.slot

/-- Put an entry into the patch table in its place. -/
def putForced (f : Forced) : List Forced → List Forced
  | [] => [f]
  | g :: r => if forcedKey f < forcedKey g then f :: g :: r else if forcedKey f = forcedKey g then { f with releasing := g.releasing } :: r else g :: putForced f r

/-- A group is armed: the patch table takes it. -/
def armGroup (s : State) (g : Group) : State :=
  let hit := fun (f : Forced) => f.part == g.part && g.slots.contains (f.lc, f.slot)
  let l := if g.release then s.ctl.forced.map (fun f => if hit f then { f with releasing := true } else f)
    else g.entries.foldl (fun l e => putForced e l) s.ctl.forced
  { s with ctl := { s.ctl with forced := l } }

/-- The words in the shadows. -/
def shadowWords (s : State) : List (Nat × BitVec 80) := (s.ctl.groups.filter (fun g => g.armed)).flatMap (fun g => g.words)

/-- A new group is armed at once when no earlier one waits and the shadows have room; else it waits (R85). -/
def addGroup (s : State) (g : Group) : State :=
  let now := s.ctl.groups.all (fun x => x.armed) && fitsShadow (shadowWords s ++ g.words)
  let s1 := if now then armGroup s g else s
  { s1 with ctl := { s1.ctl with groups := s1.ctl.groups ++ [{ g with armed := now }] } }

/-- Groups that waited are armed in order. -/
def rearmGroups (s : State) : List Group → State
  | [] => s
  | g :: r => rearmGroups (addGroup s g) r

/-- Words are written into the live store. -/
def writeLive (s : State) : List (Nat × BitVec 80) → State
  | [] => s
  | (k, w) :: r => writeLive (writeImem s k w) r

/-- The parameters of the final reply. -/
def groupReply (cycle words : Nat) : List Byte := leBytes 8 cycle ++ leBytes 4 words ++ leBytes 4 0

/-- A group names the slot of a patch-table entry. -/
def groupHits (f : Forced) (g : Group) : Bool := f.part == g.part && g.slots.contains (f.lc, f.slot)

/-- The patch table after a group has been applied; `rest`: the groups that are armed still, whose marks stay. A RELEASE takes an
entry out unless a FORCE armed later stands (R470, R471). -/
def settleTable (g : Group) (rest : List Group) (l : List Forced) : List Forced :=
  let next := fun (f : Forced) => { f with armed := rest.any (fun x => groupHits f x && !x.release),
                                           releasing := rest.any (fun x => groupHits f x && x.release) }
  (l.map (fun f => if groupHits f g then next f else f)).filter (fun f => !(groupHits f g && g.release && !f.armed))

/-- Apply armed groups in the order of arming (R132, R471). -/
def applyGroupList (s : State) (cycle : Nat) : List Group → State
  | [] => s
  | g :: r =>
    let s1 := writeLive s g.words
    let s2 := { s1 with ctl := { s1.ctl with forced := settleTable g r s1.ctl.forced } }
    applyGroupList (finalReply s2 g.call rsOk (groupReply cycle g.words.length)) cycle r

/-- Action 4, patches; then groups that waited for the shadows are armed. -/
def applyGroups (s : State) (cycle : Nat) : State :=
  let now := s.ctl.groups.filter (fun g => g.armed)
  let later := s.ctl.groups.filter (fun g => !g.armed)
  rearmGroups (applyGroupList { s with ctl := { s.ctl with groups := [] } } cycle now) later

/-- A command writes words into the live store while groups are armed: those words, and the slots, leave the groups (R471). -/
def withdrawWords (s : State) (n : Group) : State :=
  { s with ctl := { s.ctl with groups := s.ctl.groups.map (fun g =>
      { g with words := g.words.filter (fun w => !n.words.any (fun x => x.1 == w.1)),
               slots := if g.part = n.part then g.slots.filter (fun e => !n.slots.contains e) else g.slots }) } }

/-- A group of a device that does not run takes effect at once. -/
def groupNow (s : State) (g : Group) : State :=
  let s1 := writeLive (withdrawWords (armGroup s g) g) g.words
  { s1 with ctl := { s1.ctl with forced := settleTable g [] s1.ctl.forced } }

/-- Run a group: armed while the device runs, else at once. -/
def runGroup (s : State) (g : Group) : Answer :=
  if runState s = stRunning then .pending s (fun a id => addGroup a { g with call := id })
  else okReply (groupNow s g) (groupReply (getF s CYCLE_NUM) g.words.length)

/-- Common checks of FORCE and RELEASE. -/
def forceLen : State → Request → Bool := fun _ q => decide (1 ≤ par q 0 1) && decide (par q 0 1 ≤ 16) && q.length == 8 + 4 * par q 0 1

def forceRight : State → Request → Nat → Bool := fun s q r =>
  holdsRight s r (scPart q) rtForce
    && (!flag s (SEALED (scPart q)) || (forceSlots q).all (fun e => inBoundary s (scPart q) 0 e.1 e.2 0))

/-- The group of a FORCE. -/
def forceGroup (s : State) (q : Request) : Group :=
  let es := (forceSlots q).eraseDups.map (forceEntry s (scPart q) (par q 1 1 == 1))
  { call := 0, part := scPart q, release := false, slots := forceSlots q,
    words := es.flatMap (fun e => e.words.map (fun w => (w.key, w.forced))), entries := es, armed := false }

/-- Forced words of the patch table that a group does not replace. -/
def otherForced (s : State) (g : Group) : Nat :=
  ((s.ctl.forced.flatMap (fun f => f.words)).filter (fun w => !g.words.any (fun x => x.1 == w.key))).length

/-- No word lies in a tile whose stop is fenced. -/
def wordsOpen (s : State) (l : List (Nat × BitVec 80)) : Bool := l.all (fun w => !tileFenced s (w.1 / 131072 / 16))

/-- FORCE. -/
def cmdForce : Cmd where
  opcode := 0x0503
  ringsOnly := false
  length := forceLen
  scope := .target
  right := forceRight
  params := fun s q _ => decide (par q 1 1 ≤ 1) && zeroPar q 2 6 && (forceSlots q).all (forceSlotOk s (scPart q))
    && (forceGroup s q).entries.all (fun e => !e.words.isEmpty) && fitsShadow (forceGroup s q).words
  ready := fun s q _ => busyUnless (decide (otherForced s (forceGroup s q) + (forceGroup s q).words.length ≤ 16384)
    && wordsOpen s (forceGroup s q).words)
  run := fun s q _ => runGroup s (forceGroup s q)

def execForce (r : BitVec 5) (p : Packet) (s : State) : Host.Outcome State Fault Refusal := fromRing cmdForce r p s

/-- The group of a RELEASE: the original words of the forced writers. -/
def releaseGroup (s : State) (q : Request) : Group :=
  let fs := s.ctl.forced.filter (fun f => f.part == scPart q && (forceSlots q).contains (f.lc, f.slot))
  { call := 0, part := scPart q, release := true, slots := forceSlots q,
    words := fs.flatMap (fun f => f.words.map (fun w => (w.key, w.orig))), entries := [], armed := false }

/-- RELEASE. -/
def cmdRelease : Cmd where
  opcode := 0x0504
  ringsOnly := false
  length := forceLen
  scope := .target
  right := forceRight
  params := fun s q _ => zeroPar q 1 7 && (forceSlots q).all (forceSlotOk s (scPart q)) && fitsShadow (releaseGroup s q).words
  ready := fun s q _ => busyUnless (wordsOpen s (releaseGroup s q).words)
  run := fun s q _ => runGroup s (releaseGroup s q)

def execRelease (r : BitVec 5) (p : Packet) (s : State) : Host.Outcome State Fault Refusal := fromRing cmdRelease r p s

/-- One entry of FORCE_LIST. -/
def forcedBytes (f : Forced) : List Byte :=
  leBytes 2 f.lc ++ leBytes 2 f.slot ++ leBytes 1 f.value.toNat ++ leBytes 1 (f.armed.toNat + 2 * f.releasing.toNat)

/-- FORCE_LIST. -/
def cmdForceList : Cmd where
  opcode := 0x0505
  ringsOnly := false
  length := lenIs 8
  scope := .target
  right := fun s q r => holdsRight s r (scPart q) rtObserve
  params := fun _ q _ => zeroPar q 2 6
  ready := always
  run := fun s q _ =>
    let l := ((s.ctl.forced.filter (fun f => f.part == scPart q)).drop (par q 0 2)).take 16
    okReply s (leBytes 8 l.length ++ l.flatMap forcedBytes)

def execForceList (r : BitVec 5) (p : Packet) (s : State) : Host.Outcome State Fault Refusal := fromRing cmdForceList r p s

/-! ## Requests that an event ends (R440, R472) -/

/-- The patch-table entry of a slot whose FORCE was armed and is withdrawn: what the live store holds. -/
def unarmed (s : State) (f : Forced) : Option Forced :=
  if ¬ f.armed then some { f with releasing := false }
  else
    match f.words.find? (fun w => mget s.eng.imem 0 w.key != w.orig) with
    | none => none
    | some w =>
      let v := mget s.eng.imem 0 w.key == forcedWord w.orig true
      some { f with value := v, armed := false, words := f.words.map (fun x => { x with forced := forcedWord x.orig v }) }

/-- Patch groups are withdrawn before they are applied. -/
def withdrawGroups (s : State) (p : Group → Bool) : State :=
  let gone := s.ctl.groups.filter p
  let hit := fun (f : Forced) => gone.any (fun g => g.armed && g.part == f.part && g.slots.contains (f.lc, f.slot))
  { s with ctl := { s.ctl with groups := s.ctl.groups.filter (fun g => !p g),
                               forced := s.ctl.forced.filterMap (fun f => if hit f then unarmed s f else some f) } }

/-- Held writes and PEEKs of a set of tiles, and patch groups of a partition, end with a status. -/
def endTileRequests (s : State) (tiles : List Nat) (part status : Nat) : State :=
  let held := s.cyc.held.filter (fun e => tiles.contains e.1)
  let peeks := s.ctl.peeks.filter (fun p => tiles.contains (tileOfPc p.pc))
  let groups := s.ctl.groups.filter (fun g => g.part == part)
  let ids := held.flatMap (fun e => e.2.map Prod.fst) ++ peeks.map (fun p => p.call) ++ groups.map (fun g => g.call)
  let s1 := withdrawGroups s (fun g => g.part == part)
  finalReplies
    { s1 with cyc := { s1.cyc with held := s1.cyc.held.filter (fun e => !tiles.contains e.1) },
              ctl := { s1.ctl with peeks := s1.ctl.peeks.filter (fun p => !tiles.contains (tileOfPc p.pc)) } } status [] ids

/-- The requests of a list of calls are withdrawn: their held writes, PEEKs and patch groups. -/
def withdrawCalls (s : State) (ids : List Nat) : State :=
  let s1 := withdrawGroups s (fun g => ids.contains g.call)
  let held := s1.cyc.held.filterMap (fun e =>
    match e.2.filter (fun h => !ids.contains h.1) with
    | [] => none
    | l => some (e.1, l))
  { s1 with cyc := { s1.cyc with held := held },
            ctl := { s1.ctl with peeks := s1.ctl.peeks.filter (fun p => !ids.contains p.call) } }

/-- The outstanding requests of the command class: those of PEEK, DEPOSIT, FORCE and RELEASE (R437, R439). -/
def openRequests (s : State) : List Nat :=
  (s.ctl.calls.filter (fun c => decide (0x0501 ≤ c.opcode) && decide (c.opcode ≤ 0x0504))).map (fun c => c.id)

end Sys2Proof.Machine
end

