-- ==== Sys2Proof/Machine/Access.lean ====
section
/-!
DEFINITION. Register words and blocks: how the fields of a 32-bit word make its value, what a write of a span of bits
does to a field, and which bits of a block are reserved (R15, R16).
-/
namespace Sys2Proof.Machine
open Sys2Proof Reg

/-- The part of a field's value that lies in the 32 bits at offset `off`, in place. -/
def partIn (off : Nat) (f : Field) (v : Nat) : Nat :=
  if off * 8 ≤ f.key then (v * 2 ^ (f.key - off * 8)) % 2 ^ 32 else (v / 2 ^ (off * 8 - f.key)) % 2 ^ 32

/-- The value of a 32-bit word from its fields. -/
def wordValue (get : Field → Nat) (off : Nat) : List Field → Nat
  | [] => 0
  | f :: r => partIn off f (get f) + wordValue get off r

/-- The bits of a 32-bit word that some field holds. -/
def fieldMask (off : Nat) : List Field → Nat
  | [] => 0
  | f :: r => partIn off f (2 ^ f.width - 1) + fieldMask off r

/-- A written span of `n` bits from bit address `b` on. -/
structure Span where
  b : Nat
  n : Nat
  v : Nat
deriving DecidableEq, Repr

/-- The span touches a field. -/
def Span.touches (w : Span) (f : Field) : Bool := decide (w.b < f.key + f.width) && decide (f.key < w.b + w.n)

/-- The value that a field takes when the span is written over `old`. -/
def Span.put (w : Span) (f : Field) (old : Nat) : Nat :=
  if w.touches f then
    let lo := max w.b f.key
    let n := min (w.b + w.n) (f.key + f.width) - lo
    old - bitsOf old (lo - f.key) n * 2 ^ (lo - f.key) + bitsOf w.v (lo - w.b) n * 2 ^ (lo - f.key)
  else old

/-- The value that field `f` has after the span is written, before any rule of its own. -/
def Span.next (w : Span) (s : State) (f : Field) : Nat := w.put f (getF s f)

/-- The span changes a field. -/
def Span.changes (w : Span) (s : State) (f : Field) : Bool := w.next s f != getF s f

/-- Write the span into each of a list of fields. -/
def setSpan (s : State) (w : Span) (fs : List Field) : State := setFs s (fs.map (fun f => (f, w.next s f)))

/-- A write of locked fields counts as refused: it would change one, or it writes none of the fields that stand beside them in their word
and may be written. -/
def Span.refused (w : Span) (s : State) (locked beside : List Field) : Bool :=
  locked.any (w.changes s) || (locked.any w.touches && !beside.any w.touches)

/-- A 1 is written into a one-bit field. -/
def Span.ones (w : Span) (f : Field) : Bool := w.touches f && w.put f 0 != 0

/-- Bits that clear by writing 1 (R16). -/
def clearOnes (s : State) (w : Span) : List Field → State
  | [] => s
  | f :: r => clearOnes (if w.ones f then setF s f 0 else s) w r

/-- The bytes of a block of `n` words at offset `off`. -/
def blockBytes (get : Field → Nat) (words : Nat → List Field) (base off : Nat) : Nat → List Byte
  | 0 => []
  | n + 1 => leBytes 4 (wordValue get (base + off) (words off)) ++ blockBytes get words base (off + 4) n

/-- Every bit of `v` outside the fields of a block of `n` words is 0. -/
def noReserved (words : Nat → List Field) (base off v : Nat) : Nat → Bool
  | 0 => true
  | n + 1 =>
    let w := bitsOf v 0 32
    w &&& fieldMask (base + off) (words off) == w && noReserved words base (off + 4) (v / 2 ^ 32) n

/-- The fields of a block of `n` words. -/
def blockFields (words : Nat → List Field) (off : Nat) : Nat → List Field
  | 0 => []
  | n + 1 => words off ++ blockFields words (off + 4) n

/-- The counters of a list of fields are read, and clear (R16). -/
def clearRc (s : State) (fs : List Field) : State := setFs s ((fs.filter (fun f => f.acc == .rc)).map (fun f => (f, 0)))

end Sys2Proof.Machine
end

