-- ==== Sys2Proof/Machine/Transact.lean ====
section
/-!
DEFINITION. The transaction engine beside delivery (R337 to R348, R354 to R367): doorbells, host rings, spill refills, flows,
remote queues and MSG flits, FLR, BAR4, and the queue commands.
-/
namespace Sys2Proof.Machine
open Sys2Proof Reg

/-! ## Queue block (R342, R343, R345, R348, R363, R366) -/

/-- The queue is idle (R363): nothing in it, and every record of its ring fetched. No access is in flight between two
commands of the model. -/
def queueIdle (s : State) (q : Nat) : Bool :=
  depthOf s q == 0 && (!inboundQ q || getF s (Q_CONS_FETCHED q) == getF s (Q_PROD q))

/-- A field of the queue block as a read sees it. -/
def queueVal (s : State) (q : Nat) (f : Field) : Nat :=
  if f = Q_DEPTH q then depthOf s q else if f = Q_IDLE q then (queueIdle s q).toNat else getF s f

/-- HRING_EN goes from 0 to 1: PROD, CONS, FETCHED and WB_LAST become 0 (R348). -/
def enableHring (s : State) (q : Nat) : State :=
  if flag s (Q_HRING_EN q) then s
  else setFs (setQueue s q { queueAt s q with wbLast := 0 }) [(Q_HRING_EN q, 1), (Q_PROD q, 0), (Q_CONS_FETCHED q, 0)]

/-- The spill ring lies in its partition's region (R343). -/
def spillFits (s : State) (q : Nat) : Bool :=
  spillSize s q == 0 || rangeInRegion s (getF s (Q_PARTITION q)) (getF s (Q_STACK q)) (getF s (Q_BASE_LINE q)) (spillSize s q)

/-- ENABLE is written (R343). -/
def setQueueEnable (s : State) (q v : Nat) : State :=
  if v = 1 ∧ ¬ flag s (Q_ENABLE q) ∧ ¬ spillFits s q then setFlag s (Q_CFG_REFUSED q) true else setF s (Q_ENABLE q) v

/-- Fields writable only while ENABLE is 0, and only while HRING_EN is 0. SINK of an inbound queue is reserved. -/
def queueLocked (q : Nat) : List Field :=
  (if inboundQ q then [] else [Q_SINK q]) ++
    [Q_PARTITION q, Q_WIDTH_M1 q, Q_STACK q, Q_BASE_LINE q, Q_SPILL_LOG2 q, Q_RDEV q, Q_RQ q, Q_RDELAY q, Q_RCAP q]

def hringLocked (q : Nat) : List Field := [Q_HRING_LOG2 q, Q_WB_LOG2 q, Q_HRING_ADDR q, Q_WB_ADDR q]

/-- A write is refused for fields that the state locks. -/
def queueRefuses (s : State) (w : Span) (q : Nat) : Bool :=
  (flag s (Q_ENABLE q) && w.refused s (queueLocked q) [Q_ENABLE q]) || (flag s (Q_HRING_EN q) && w.refused s (hringLocked q) [Q_ENABLE q])

/-- A write of a span of a queue block. -/
def writeQueueBlock (s : State) (w : Span) (q : Nat) : State :=
  let s0 := if queueRefuses s w q then setFlag s (Q_CFG_REFUSED q) true else s
  let s1 := if flag s (Q_ENABLE q) then s0 else setSpan s0 w (queueLocked q)
  let s2 := if flag s (Q_HRING_EN q) then s1 else setSpan s1 w (hringLocked q)
  let s3 := setSpan s2 w [Q_LATE_EV q, Q_EV_THRESH q, Q_EV_TIMER q]
  let s4 := if w.touches (Q_ENABLE q) then setQueueEnable s3 q (w.next s (Q_ENABLE q)) else s3
  let s5 := if w.touches (Q_HRING_EN q) then
      (if w.next s (Q_HRING_EN q) = 1 then enableHring s4 q else setF s4 (Q_HRING_EN q) 0) else s4
  clearOnes s5 w [Q_DB_ERR q, Q_CRC_ERR q, Q_ALIVE_ERR q, Q_LATE q, Q_REMOTE_DROP q]

/-- W1C of CFG_REFUSED, taken before a refusal of the same write sets it; a new owner ends the route of the group's event (R492). -/
def writeQueue (s : State) (w : Span) (q : Nat) : State :=
  fixRoutes s (writeQueueBlock (clearOnes s w [Q_CFG_REFUSED q]) w q) [1280 + q / 16]

/-- HRING_EN: the host sets HRING_EN of queue `q`. -/
def execHringEn (q : BitVec 15) (s : State) : Host.Outcome State Fault Refusal := byHost s (fun a => enableHring a q.toNat)

/-! ## Doorbells (R339, R345 to R347) -/

/-- A doorbell breaks its rule: DB_ERR and the group event. -/
def doorbellError (s : State) (q : Nat) : State := raiseQueueEv (setFlag s (Q_DB_ERR q) true) q

/-- A doorbell takes effect. -/
def ringDoorbell (s : State) (q v : Nat) : State :=
  if ¬ flag s (Q_HRING_EN q) then s
  else if inboundQ q then
    if diff32 v (getF s (Q_CONS_FETCHED q)) ≤ ringSlots s q then setF s (Q_PROD q) v else doorbellError s q
  else if diff32 (getF s (Q_PROD q)) v ≤ diff32 (getF s (Q_PROD q)) (getF s (Q_CONS_FETCHED q)) then
    setF s (Q_CONS_FETCHED q) v
  else doorbellError s q

/-- The device's own index of a queue. -/
def ownIndex (s : State) (q : Nat) : Nat := if inboundQ q then getF s (Q_CONS_FETCHED q) else getF s (Q_PROD q)

/-- The partition that a PCIe function serves: 0 for the PF (R338). -/
def partOfFn (fn : Nat) : Nat := fn - 1

/-- An access of a function to a doorbell; ones in its reserved bits [63:32] are counted (R17). -/
def doorbell (s : State) (fn q : Nat) (v : Option (BitVec 64)) : State :=
  match v with
  | none => { s with readData := ownIndex s q }
  | some x =>
    let s1 := if x.toNat < 2 ^ 32 then s else addF s RSVD_WRITE 1
    if fn = 0 ∨ getF s (Q_PARTITION q) = partOfFn fn then ringDoorbell s1 q (x.toNat % 2 ^ 32) else addF s1 DB_REJECT 1

/-- DOORBELL: an access of function `fn` to the doorbell of a queue: a write of a value, or a read. -/
def execDoorbell (fn : BitVec 5) (q : BitVec 15) (v : Option (BitVec 64)) (s : State) : Host.Outcome State Fault Refusal :=
  byHost s (fun a => doorbell a fn.toNat q.toNat v)

/-! ## Host rings and spill rings (R343, R346, R347) -/

/-- A window word has an uncorrectable error (R199, R343). -/
def windowError (s : State) : State := raiseFault s fcHubMemUncorr (locDevice s)

/-- HOST_RECORD_FETCH: the engine fetches inbound records; `uncorr`: a window word it then reads has an uncorrectable
error. -/
def execHostRecordFetch (q : BitVec 15) (records : List (BitVec 512)) (uncorr : Bool) (s : State) :
    Host.Outcome State Fault Refusal :=
  let k := q.toNat
  if inboundQ k ∧ flag s (Q_ENABLE k) ∧ flag s (Q_HRING_EN k) then
    let f := getF s (Q_CONS_FETCHED k)
    let s1 := fetchAll s k records
    let n := diff32 (getF s1 (Q_CONS_FETCHED k)) f
    let s2 := if n = 0 then s1 else traceQueue s1 k 0x30 (leBytes 2 k ++ leBytes 2 n)
    .next (if uncorr ∧ n ≠ 0 then windowError s2 else s2)
  else .next s

/-- SPILL_REFILL: the window has room, and the head of the spill ring is read; `tagFail`: the controller finds its tag bad. -/
def execSpillRefill (q : BitVec 15) (tagFail : Bool) (s : State) : Host.Outcome State Fault Refusal :=
  let k := q.toNat
  let x := queueAt s k
  match x.spill with
  | [] => .next s
  | m :: _ => if 32 ≤ x.window.length then .next s else .next (refill s k m tagFail)

/-- A queue sends its records to its own host ring: outbound, in service, HOST, in no enabled flow. -/
def hostSink (s : State) (q : Nat) : Bool :=
  !inboundQ q && flag s (Q_ENABLE q) && !flag s (Q_SINK q) && (flowOf s q).isNone

/-- The oldest record of `q` goes to the host ring of `ring`; `more`: another can follow. -/
def releaseHead (s : State) (ring q : Nat) (r : Record) (more : State → Bool) : State :=
  let s1 := popHead s q
  noteLeft (writeHostRecord s1 ring r (more s1)) q r

/-- OUTBOUND_RECORD_WRITE: the oldest record is written to the host ring while it has room. -/
def execOutboundRecordWrite (q : BitVec 15) (uncorr : Bool) (s : State) : Host.Outcome State Fault Refusal :=
  let k := q.toNat
  if hostSink s k ∧ flag s (Q_HRING_EN k) ∧ hostRoom s k then
    match headOf s k with
    | none => .next s
    | some r =>
      if uncorr then .next (windowError s) else .next (releaseHead s k k r (fun a => depthOf a k != 0))
  else .next s

/-- EV_TIMER: records not yet signalled raise the group event (R366). -/
def execEvTimer (q : BitVec 15) (s : State) : Host.Outcome State Fault Refusal :=
  let k := q.toNat
  let x := queueAt s k
  if getF s (Q_EV_TIMER k) ≠ 0 ∧ x.unsignalled ≠ 0 then
    .next (raiseQueueEv (setQueue s k { x with unsignalled := 0 }) k)
  else .next s

/-! ## Ordered flows (R358) -/

/-- The members of a flow have SINK HOST and its ring is in service. -/
def flowServes (s : State) (f : Nat) : Bool :=
  flag s (F_ENABLE f) && decide (16384 ≤ getF s (F_QBASE f)) && (members s f).all (fun q => !flag s (Q_SINK q))
    && flag s (Q_HRING_EN (getF s (F_QBASE f))) && flag s (Q_ENABLE (getF s (F_QBASE f)))

/-- The lowest member whose head carries NEXT. -/
def nextMember (s : State) (f : Nat) : Option Nat :=
  (members s f).find? (fun q => match headOf s q with
    | some r => flowSeq r == getF s (F_NEXT f)
    | none => false)

/-- Heads behind NEXT are dropped from every member. -/
def dropDuplicates (s : State) (f : Nat) : State :=
  (members s f).foldl (fun a q => dropBehind a f q (queueAt a q).window.length) s

/-- FLOW_RELEASE: heads behind NEXT are dropped, and the head that carries NEXT is written to the flow's ring. -/
def execFlowRelease (flow : BitVec 9) (s : State) : Host.Outcome State Fault Refusal :=
  let f := flow.toNat
  if ¬ flowServes s f then .next s
  else
    let s1 := dropDuplicates s f
    let ring := getF s1 (F_QBASE f)
    match nextMember s1 f with
    | none => .next s1
    | some q =>
      match headOf s1 q with
      | none => .next s1
      | some r =>
        if hostRoom s1 ring then
          let s2 := setF s1 (F_NEXT f) (flowSeq r + 1)
          .next (releaseHead s2 ring q { r with seq := BitVec.ofNat 32 (flowSeq r) } (fun a => (nextMember a f).isSome))
        else .next s1

/-! ## Remote queues (R359, R360) -/

/-- The three flits of a record on its way: HEAD, DATA_LO, and DATA_HI beyond 128 bits. -/
def sendRecord (s : State) (dev rq width : Nat) (r : Record) : State :=
  let head := r.dcyc.toNat + r.seq.toNat * 2 ^ 48 + r.alive.toNat * 2 ^ 80 + r.check.toNat * 2 ^ 88
  let s1 := sendMsg (sendMsg s dev rq 0 head) dev rq 1 (r.data.toNat % 2 ^ 128)
  if 128 < width then sendMsg s1 dev rq 2 (r.data.toNat / 2 ^ 128) else s1

/-- REMOTE_FORWARD: the oldest record of a REMOTE queue is forwarded while a credit is held. -/
def execRemoteForward (q : BitVec 15) (uncorr : Bool) (s : State) : Host.Outcome State Fault Refusal :=
  let k := q.toNat
  let x := queueAt s k
  match headOf s k with
  | none => .next s
  | some r =>
    if ¬ inboundQ k ∧ flag s (Q_ENABLE k) ∧ flag s (Q_SINK k) ∧ x.lent < getF s (Q_RCAP k) then
      if uncorr then .next (windowError s)
      else if (routeOfDev s (getF s (Q_RDEV k))).isNone then .next (switchUnbound s)
      else
        let r1 := { r with dcyc := r.dcyc + BitVec.ofNat 48 (getF s (Q_RDELAY k)) }
        let s1 := popHead (setQueue s k { x with lent := x.lent + 1 }) k
        .next (noteLeft (sendRecord s1 (getF s (Q_RDEV k)) (getF s (Q_RQ k)) (getF s (Q_WIDTH_M1 k) + 1) r1) k r)
    else .next s

/-- A record has arrived from another device: checked and kept, or discarded with its credit returned (R359). -/
def remoteArrival (s : State) (q : Nat) (r : Record) : State :=
  if ¬ flag s (Q_ENABLE q) ∨ ¬ inboundQ q ∨ ¬ roomIn s q then
    raiseQueueEv (setFlag (noteDropped s q r.remote 3) (Q_REMOTE_DROP q) true) q
  else
    let x := queueAt s q
    enqueue (setQueue s q { x with arrivals := x.arrivals + 1 }) q { r with ridx := BitVec.ofNat 32 x.arrivals }

/-- The number of a record under reassembly. -/
def asmKey (src q : Nat) : Nat := src * 16384 + q

def setAsm (s : State) (k : Nat) (r : Option Record) : State :=
  { s with qs := { s.qs with asm := mset s.qs.asm none k r } }

/-- A flit of a record for this device: HEAD begins it, DATA_LO and DATA_HI bring its bits, and the last of those that the
queue's width needs completes it (R360). -/
def takeRecordFlit (s : State) (src q kind body : Nat) : State :=
  let k := asmKey src q
  if kind = 0 then
    setAsm s k (some
      { dcyc := BitVec.ofNat 48 body, seq := BitVec.ofNat 32 (bitsOf body 48 32), alive := BitVec.ofNat 8 (bitsOf body 80 8),
        rflags := 0, check := BitVec.ofNat 64 (bitsOf body 88 64), user := 0, data := 0, ridx := 0,
        remote := some (BitVec.ofNat 9 src), entered := 0, order := 0 })
  else
    match mget s.qs.asm none k with
    | none => s
    | some r =>
      let d := if kind = 1 then body % 2 ^ 128 else r.data.toNat % 2 ^ 128 + body % 2 ^ 128 * 2 ^ 128
      let r1 := { r with data := BitVec.ofNat 256 d }
      if kind = 1 ∧ 128 ≤ getF s (Q_WIDTH_M1 q) then setAsm s k (some r1) else remoteArrival (setAsm s k none) q r1

/-- Credits come back to an outbound queue. -/
def takeCredits (s : State) (q n : Nat) : State :=
  let x := queueAt s q
  setQueue s q { x with lent := x.lent - n }

/-- An MSG flit for another device goes on with HOPS one higher (R246). -/
def forwardMsg (s : State) (p : BitVec 224) : State :=
  let hops := pf p 32 4
  let p1 := BitVec.ofNat 224 (p.toNat - hops * 2 ^ 32 + min (hops + 1) 15 * 2 ^ 32)
  match routeOfDev s (pf p 0 9) with
  | some t => sendFlit s t ftMsg p1
  | none => switchUnbound s

/-- MSG received on an UP trunk. -/
def onMsg (s : State) (t : Nat) (p : BitVec 224) : State :=
  if getF s (TS_STATE t) ≠ tsUp then s
  else if pf p 0 9 ≠ getF s DEV_ID then forwardMsg s p
  else if pf p 36 2 = 3 then takeCredits s (16384 + pf p 18 14) (pf p 46 16)
  else takeRecordFlit s (pf p 9 9) (pf p 18 14) (pf p 36 2) (pf p 46 178)

/-! ## End of a ring's service, FLR and host-link errors (R341, R454) -/

/-- Service of command ring `r` ends: replies of its outstanding commands are discarded (R454). -/
def endRing (s : State) (r : Nat) : State :=
  let gone := fun (c : Call) => if c.via = .ring r then { c with via := .gone } else c
  setF { s with ctl := { s.ctl with calls := s.ctl.calls.map gone } } (CR_ENABLE r) 0

/-- HRING_EN is cleared in every queue of a partition. -/
def clearPartHrings (s : State) (p : Nat) : State :=
  let base := queueBase 0 * 8
  { s with regs := mdrop s.regs (fun k =>
      decide (base ≤ k) && decide (k < base + 32768 * 512) && (k - base) % 512 == 24
        && getF s (Q_PARTITION ((k - base) / 512)) == p) }

/-- FLR of one function. -/
def flrOne (s : State) (fn : Nat) : State :=
  let s1 := clearPartHrings s (partOfFn fn)
  endRing s1 fn

/-- FLR: of a VF, or of the PF, which acts as an FLR of every function. -/
def execFlr (fn : BitVec 5) (s : State) : Host.Outcome State Fault Refusal :=
  if fn = 0 then .next ((List.range 17).foldl flrOne s)
  else if fn.toNat ≤ 16 then .next (flrOne s fn.toNat)
  else .next s

/-! ## BAR4 (R340, R437, R438) -/

/-- What a host access does through BAR4. -/
def bar4Line (s : State) (fn off : Nat) : Nat := getF s (BAR4_BASE fn (off / 2 ^ 34)) + off % 2 ^ 34 / 64

/-- A partition may reach a line in plaintext: SNAPSHOT for a snapshot area, DEBUG_MEM for any other of the region. -/
def lineAllowed (s : State) (r st line : Nat) : Bool :=
  match ownerOfLine s st line with
  | none => false
  | some q => holdsRight s r q (if inSnapArea s q st line then rtSnapshot else rtDebugMem)

/-- The tag of a line verifies for its owner. -/
def lineGood (s : State) (st line : Nat) : Bool :=
  match ownerOfLine s st line with
  | none => false
  | some q => tagGood s q st line

/-- Record the status of a failed access. -/
def bar4Fail (s : State) (fn code : Nat) : State := setF s (BAR4_ERR fn) code

/-- The lines of `n` bytes from offset `off`. -/
def bar4Lines (s : State) (fn off n : Nat) : List Nat :=
  (List.range ((off % 64 + n + 63) / 64)).map (fun i => bar4Line s fn off + i)

/-- The lines of a write that are not written whole, whose tags are checked. -/
def partialLines (s : State) (fn off n : Nat) : List Nat :=
  let l := bar4Lines s fn off n
  (if off % 64 = 0 then [] else l.take 1) ++ (if (off + n) % 64 = 0 then [] else l.drop (l.length - 1))

/-- A tag failure of a host access. -/
def bar4Alarm (s : State) (fn st line : Nat) : State :=
  bar4Fail (secAlarm s alTag 1 ((ownerOfLine s st line).getD 0) st line) fn 2

/-- The bytes of a read: in a snapshot area, or of a line with an uncorrectable error, they are open. -/
def bar4Bytes (s : State) (st line off n : Nat) (bad : Bool) : Nat :=
  let q := (ownerOfLine s st line).getD 0
  if bad ∨ inSnapArea s q st line then (Config.freeValue (8 * n) s.free).toNat
  else leNat (rdList s.hbm (hbmAddr st (line * 64 + off % 64)) n)

/-- What the controller finds in the data of a read is counted (R175). -/
def hbmFound (s : State) (st : Nat) (err : ReadErrorKind) : State :=
  match err with
  | .corrected => raiseEv (addF s (HBM_CORR st) 1) (evHbmCorr st)
  | .uncorrectable => addF s (HBM_UNCORR st) 1
  | _ => s

/-- A write through BAR4: its lines' tags are made anew. -/
def bar4Write (s : State) (st line off : Nat) (data : List Byte) : State :=
  let n := (off % 64 + data.length + 63) / 64
  let s1 := { s with hbm := wrList s.hbm (hbmAddr st (line * 64 + off % 64)) data,
                     eng := { s.eng with memErr := mdrop s.eng.memErr (fun k => decide (farLineKey st line ≤ k) && decide (k < farLineKey st line + n)) } }
  match ownerOfLine s st line with
  | some q => stampLines s1 q st line n
  | none => s1

/-- One access through BAR4 (R340). -/
def bar4Access (s : State) (fn off : Nat) (a : Bar4) (err : ReadErrorKind) : State :=
  let st := off / 2 ^ 34
  let line := bar4Line s fn off
  let n := match a with | .read k => k.toNat | .write d => d.length
  let ls := bar4Lines s fn off n
  let checked := match a with | .read _ => ls | .write _ => partialLines s fn off n
  if n = 0 then s
  else if ¬ ls.all (lineAllowed s (partOfFn fn) st) then bar4Fail (refuseRights s) fn 1
  else
    match checked.find? (fun l => !lineGood s st l), decide (err = .tagFail && !checked.isEmpty) with
    | some l, _ => bar4Alarm s fn st l
    | none, true => bar4Alarm s fn st line
    | none, false =>
      match a with
      | .read k => { hbmFound (drawFree s) st err with readData := bar4Bytes s st line off k.toNat (err == .uncorrectable) }
      | .write d => bar4Write (if checked.isEmpty then s else hbmFound s st err) st line off d

/-- The access was checked under the epoch that a SET_RIGHTS ends, and is outstanding still: it is aborted (R440). -/
def bar4Abort (s : State) (fn : Nat) : State :=
  match s.sec.rights with
  | none => s
  | some (c, l) => bar4Fail { s with sec := { s.sec with rights := some (c, l ++ [0]) } } fn 3

/-- BAR4_ACCESS: `stale` says that the access is one of the old epoch of the SET_RIGHTS under way. -/
def execBar4Access (fn : BitVec 5) (off : BitVec 36) (a : Bar4) (err : ReadErrorKind) (stale : Bool) (s : State) :
    Host.Outcome State Fault Refusal :=
  byHost s (fun x =>
    if 16 < fn.toNat then x
    else if stale ∧ x.sec.rights.isSome then bar4Abort x fn.toNat
    else bar4Access x fn.toNat off.toNat a err)

/-! ## Check units and flows as registers (R358, R363, R366) -/

/-- Fields of a unit beside ENABLE. -/
def unitParams (u : Nat) : List Field :=
  [U_WIDTH_M1 u, U_REFIN u, U_REFOUT u, U_QUEUE u, U_ACTION u, U_ALIVE_EN u, U_POLY u, U_INIT u, U_XOROUT u]

/-- The unit may be written: ENABLE 0, or its queue idle. -/
def unitFree (s : State) (u : Nat) : Bool := !flag s (U_ENABLE u) || queueIdle s (getF s (U_QUEUE u))

/-- A unit is bound anew: LAST_ALIVE restarts. -/
def restartAlive (s : State) (u : Nat) : State :=
  { setF s (U_LAST_ALIVE u) 0 with qs := { s.qs with unitSeen := mset s.qs.unitSeen false u false } }

/-- A write of a span of a check unit's block. -/
def writeUnit (s : State) (w : Span) (u : Nat) : State :=
  let ch := w.refused s (unitParams u) [U_ENABLE u]
  let rebind := w.changes s (U_QUEUE u) || (w.next s (U_ENABLE u) == 1 && !flag s (U_ENABLE u))
  let s0 := clearOnes s w [U_REBIND_REFUSED u]
  let s1 := if ch ∧ ¬ unitFree s u then setFlag s0 (U_REBIND_REFUSED u) true
    else
      let a := setSpan s0 w (unitParams u)
      if rebind then restartAlive a u else a
  setSpan s1 w [U_ENABLE u]

/-- A write of a span of a flow's block: NEXT only while ENABLE is 0. -/
def writeFlow (s : State) (w : Span) (f : Nat) : State :=
  let s1 := if flag s (F_ENABLE f) then s else setSpan s w [F_NEXT f]
  setSpan s1 w [F_QBASE f, F_COUNT_M1 f, F_ENABLE f]

/-- The delivery log of a partition lies in its region. -/
def dlogFits (s : State) (p : Nat) : Bool :=
  dlogSize s p == 0 || rangeInRegion s p (getF s (DLOG_STACK p)) (getF s (DLOG_BASE_LINE p)) (dlogSize s p / 4)

/-- A write of a span of a DLOG block; a ring outside the partition's region is refused. -/
def writeDlog (s : State) (w : Span) (p : Nat) : State :=
  let s1 := setSpan s w [DLOG_STACK p, DLOG_BASE_LINE p, DLOG_LOG2 p]
  setSpan (if dlogFits s1 p then s1 else s) w [DLOG_CONS p]

/-! ## Commands 0x0A01 to 0x0A07 (R365) -/

/-- The span of a block that a command carries. -/
def blockSpan (base bytes v : Nat) : Span := ⟨base * 8, bytes * 8, v⟩

/-- A queue belongs to the requester, or the requester is partition 0. -/
def ownsQueue (s : State) (r q : Nat) : Bool := r == 0 || decide (32768 ≤ q) || getF s (Q_PARTITION q) == r

/-- The parameters of a command that names a queue. -/
def queueParams : State → Request → Nat → Bool := fun _ q _ => decide (par q 0 2 < 32768) && zeroPar q 2 6

/-- QUEUE_GET. -/
def cmdQueueGet : Cmd where
  opcode := 0x0A01
  ringsOnly := false
  length := lenIs 8
  scope := .plain
  right := fun s q r => ownsQueue s r (par q 0 2)
  params := queueParams
  ready := always
  run := fun s q _ =>
    let k := par q 0 2
    okReply s (blockBytes (queueVal s k) (queueWord k) (queueBase k) 0 16)

def execQueueGet (r : BitVec 5) (p : Packet) (s : State) : Host.Outcome State Fault Refusal := fromRing cmdQueueGet r p s

/-- The span of QUEUE_SET. -/
def queueSetSpan (q : Request) : Span := blockSpan (queueBase (par q 0 2)) 64 (par q 8 64)

/-- QUEUE_SET. -/
def cmdQueueSet : Cmd where
  opcode := 0x0A02
  ringsOnly := false
  length := lenIs 72
  scope := .plain
  right := fun s q r => ownsQueue s r (par q 0 2)
    && (r == 0 || decide (32768 ≤ par q 0 2) || !(queueSetSpan q).changes s (Q_PARTITION (par q 0 2)))
  params := fun s q r => queueParams s q r && noReserved (queueWord (par q 0 2)) (queueBase (par q 0 2)) 0 (par q 8 64) 16
    && (!inboundQ (par q 0 2) || !(queueSetSpan q).ones (Q_SINK (par q 0 2)))
  ready := fun s q _ => busyUnless (!queueRefuses s (queueSetSpan q) (par q 0 2))
  run := fun s q _ => okReply (writeQueue s (queueSetSpan q) (par q 0 2)) []

def execQueueSet (r : BitVec 5) (p : Packet) (s : State) : Host.Outcome State Fault Refusal := fromRing cmdQueueSet r p s

/-- QUEUE_STATS: the counters are returned, and clear. -/
def cmdQueueStats : Cmd where
  opcode := 0x0A03
  ringsOnly := false
  length := lenIs 8
  scope := .plain
  right := fun s q r => ownsQueue s r (par q 0 2)
  params := queueParams
  ready := always
  run := fun s q _ =>
    let k := par q 0 2
    okReply (clearRc s (blockFields (qcntWord k) 0 8)) (blockBytes (getF s) (qcntWord k) (qcntBase k) 0 8)

def execQueueStats (r : BitVec 5) (p : Packet) (s : State) : Host.Outcome State Fault Refusal := fromRing cmdQueueStats r p s

/-- A record is staged in the tile: one frozen at a cut-off, or the best eligible one for the cycle after the one at hand (R350). -/
def stagedNow (s : State) (i : Nat) : Bool :=
  flag s (P_BOUND i) && !flag s (P_DIR i) && ((msgAt s i).staged.isSome || (bestFor s i (getF s CYCLE_NUM + 1)).isSome)

/-- A field of a port block as a read sees it. -/
def portVal (s : State) (i : Nat) (f : Field) : Nat :=
  if f = P_STAGED i then (stagedNow s i).toNat else getF s f

/-- PORT_GET. -/
def cmdPortGet : Cmd where
  opcode := 0x0A04
  ringsOnly := false
  length := lenIs 8
  scope := .plain
  right := fun s q r => r == 0 || decide (2048 ≤ par q 0 2) || getF s (TILE_PARTITION (par q 0 2 / 16)) == r
  params := fun _ q _ => decide (par q 0 2 < 2048) && zeroPar q 2 6
  ready := always
  run := fun s q _ =>
    let i := par q 0 2
    okReply s (blockBytes (portVal s i) (portWord i) (portBase i) 0 8)

def execPortGet (r : BitVec 5) (p : Packet) (s : State) : Host.Outcome State Fault Refusal := fromRing cmdPortGet r p s

/-- The span of FLOW_SET, and the queues it names. -/
def flowSetSpan (q : Request) : Span := blockSpan (flowBase (par q 0 2)) 8 (par q 8 8)
def flowSetQueues (q : Request) : List Nat := (List.range (bitsOf (par q 8 4) 15 4 + 1)).map (fun i => bitsOf (par q 8 4) 0 15 + i)

/-- FLOW_SET: a flow in service belongs to its queues' partition too. -/
def cmdFlowSet : Cmd where
  opcode := 0x0A05
  ringsOnly := false
  length := lenIs 16
  scope := .plain
  right := fun s q r => r == 0 || ((flowSetQueues q).all (ownsQueue s r)
    && (decide (512 ≤ par q 0 2) || !flag s (F_ENABLE (par q 0 2)) || (members s (par q 0 2)).all (ownsQueue s r)))
  params := fun _ q _ => decide (par q 0 2 < 512) && zeroPar q 2 6 && noReserved (flowWord (par q 0 2)) (flowBase (par q 0 2)) 0 (par q 8 8) 2
    && (flowSetQueues q).all (fun k => decide (16384 ≤ k) && decide (k < 32768))
  ready := fun s q _ => busyUnless (!(flag s (F_ENABLE (par q 0 2)) && (flowSetSpan q).changes s (F_NEXT (par q 0 2))))
  run := fun s q _ => okReply (writeFlow s (flowSetSpan q) (par q 0 2)) []

def execFlowSet (r : BitVec 5) (p : Packet) (s : State) : Host.Outcome State Fault Refusal := fromRing cmdFlowSet r p s

/-- The span of CRC_SET. -/
def crcSetSpan (q : Request) : Span := blockSpan (crcBase (par q 0 1)) 32 (par q 8 32)

/-- CRC_SET. -/
def cmdCrcSet : Cmd where
  opcode := 0x0A06
  ringsOnly := false
  length := lenIs 40
  scope := .plain
  right := fun s q r => r == 0 || (ownsQueue s r (bitsOf (par q 8 4) 9 15)
    && (decide (64 ≤ par q 0 1) || !flag s (U_ENABLE (par q 0 1)) || ownsQueue s r (getF s (U_QUEUE (par q 0 1)))))
  params := fun _ q _ => decide (par q 0 1 < 64) && zeroPar q 1 7
    && noReserved (crcWord (par q 0 1)) (crcBase (par q 0 1)) 0 (par q 8 32) 8
  ready := fun s q _ => busyUnless (unitFree s (par q 0 1) || !(unitParams (par q 0 1)).any ((crcSetSpan q).changes s))
  run := fun s q _ => okReply (writeUnit s (crcSetSpan q) (par q 0 1)) []

def execCrcSet (r : BitVec 5) (p : Packet) (s : State) : Host.Outcome State Fault Refusal := fromRing cmdCrcSet r p s

/-- The span of DLOG_SET. -/
def dlogSetSpan (q : Request) : Span := blockSpan (dlogBase (par q 0 1)) 32 (par q 8 32)

/-- The ring that DLOG_SET asks for lies in the partition's region. -/
def dlogSetFits (s : State) (q : Request) : Bool :=
  let p := par q 0 1
  dlogFits (setSpan s (dlogSetSpan q) [DLOG_STACK p, DLOG_BASE_LINE p, DLOG_LOG2 p]) p

/-- DLOG_SET. -/
def cmdDlogSet : Cmd where
  opcode := 0x0A07
  ringsOnly := false
  length := lenIs 40
  scope := .plain
  right := fun _ q r => r == 0 || decide (16 ≤ par q 0 1) || par q 0 1 == r
  params := fun s q _ => decide (par q 0 1 < 16) && zeroPar q 1 7
    && noReserved (dlogWord (par q 0 1)) (dlogBase (par q 0 1)) 0 (par q 8 32) 8
    && decide (bitsOf (par q 8 8) 32 5 ≤ 26) && dlogSetFits s q
  ready := always
  run := fun s q _ => okReply (writeDlog s (dlogSetSpan q) (par q 0 1)) []

def execDlogSet (r : BitVec 5) (p : Packet) (s : State) : Host.Outcome State Fault Refusal := fromRing cmdDlogSet r p s

/-! ## Host-link errors (R454) -/

/-- A fetch or write for a command ring fails: DMA_ERR, and EN is cleared. -/
def ringDmaError (s : State) (r : Nat) : State :=
  if flag s (CR_ENABLE r) then endRing (setFlag s (CR_DMA_ERR r) true) r else s

end Sys2Proof.Machine
end

