-- ==== Sys2Proof/Machine/Arrivals.lean ====
section
/-!
DEFINITION. Sequenced flits that arrive (R288, R293, R294): each is accepted in the order of its lane, waits there for the lane's turn, and
is then handed to the layer that its TYPE and CSUB name. One that arrives may so release others that have waited behind it.
-/
namespace Sys2Proof.Machine
open Sys2Proof Reg

/-- The next flit of the trunk stream of trunk `t` is acted on; one with a reserved TYPE or CSUB is discarded (R288, R289). -/
def handle (s : State) (t : Nat) (f : Flit) : State :=
  let p := f.payload
  if f.type = ftExch then onExch s t p
  else if f.type = ftMsg then onMsg s t p
  else if f.type ≠ ftCtrl then s
  else
    match csubOf p with
    | 0x10 => onCycleReport s t p
    | 0x40 => onHello s t p
    | 0x41 => flooded s t p onGopAnnounce
    | 0x42 => onSync s t p
    | 0x43 => flooded s t p onStopNotice
    | 0x44 => flooded s t p onFaultNotice
    | 0x45 => flooded s t p onFreeze
    | _ => s

/-- Take at most `n` flits of a trunk stream, as far as they have come. -/
def drain (s : State) (t : Nat) : Nat → State
  | 0 => s
  | n + 1 =>
    match nextHeld s t with
    | some (lane, f) => drain (handle (popHeld s t lane) t f) t n
    | none => s

/-- A sequenced flit arrives. -/
def receive (s : State) (rx : Rx) : Host.Outcome State Fault Refusal :=
  match takeFlit s rx with
  | .refused => .next (heard s rx)
  | .discarded s1 => .next s1
  | .accepted s1 t => .next (drain s1 t (heldCount s1 t))

/-! ## The rows: a flit of each name arrives -/

/-- EXCH (R246). -/
def execExch (rx : Rx) (s : State) : Host.Outcome State Fault Refusal := receive s rx

/-- MSG (R360). -/
def execMsg (rx : Rx) (s : State) : Host.Outcome State Fault Refusal := receive s rx

/-- CYCLE_REPORT (R253, R290). -/
def execCycleReport (rx : Rx) (s : State) : Host.Outcome State Fault Refusal := receive s rx

/-- HELLO (R248, R250). -/
def execHello (rx : Rx) (s : State) : Host.Outcome State Fault Refusal := receive s rx

/-- GOP_ANNOUNCE (R260). -/
def execGopAnnounce (rx : Rx) (s : State) : Host.Outcome State Fault Refusal := receive s rx

/-- SYNC (R255). -/
def execSync (rx : Rx) (s : State) : Host.Outcome State Fault Refusal := receive s rx

/-- STOP_NOTICE (R263). -/
def execStopNotice (rx : Rx) (s : State) : Host.Outcome State Fault Refusal := receive s rx

/-- FAULT_NOTICE (R264). -/
def execFaultNotice (rx : Rx) (s : State) : Host.Outcome State Fault Refusal := receive s rx

/-- FREEZE (R266). -/
def execFreeze (rx : Rx) (s : State) : Host.Outcome State Fault Refusal := receive s rx

end Sys2Proof.Machine
end

