-- ==== Sys2Proof/Machine/Capture.lean ====
section
/-!
DEFINITION. Capture (R368 to R384): the capture vector, the acquisition engine, the trigger sequencer, mask tests, records,
and the capture and trace commands (R393).
-/
namespace Sys2Proof.Machine
open Sys2Proof Reg

/-! ## The capture vector (R368 to R371) -/

/-- The tile of the word that a capture entry names. -/
def entryTile (e : CapEntry) : Nat := e.word / 131072 / 16

/-- The entries of every loaded capture map. -/
def allEntries (s : State) : List CapEntry := s.acq.entries.flatMap (fun p => p.2)

/-- An entry's bit is delivered to the acquisition: the owner's own partition, or one on which it holds CAPTURE (R371). -/
def delivered (s : State) (e : CapEntry) : Bool :=
  holdsRight s (getF s ACQ_OWNER) (getF s (TILE_PARTITION (entryTile e))) rtCapture
    || getF s ACQ_OWNER == getF s (TILE_PARTITION (entryTile e))

/-- The bit of an entry: its word's result bit, 0 in a tile that is gated or held in reset (R370). -/
def entryBit (s : State) (e : CapEntry) : Bool :=
  mget s.eng.capBit false e.word && !flag s (TILE_GATED (entryTile e)) && !flag s (TILE_IN_RESET (entryTile e))

/-- The delivered capture vector of die `d`. -/
def vectorOf (s : State) (d : Nat) : Nat :=
  bitSet (((allEntries s).filter (fun e => !e.trigger && e.die == d && delivered s e && entryBit s e)).map (fun e => e.pos))

/-- The delivered trigger bits. -/
def triggerBits (s : State) : Nat :=
  bitSet (((allEntries s).filter (fun e => e.trigger && delivered s e && entryBit s e)).map (fun e => e.pos))

/-! ## Rings (R374) -/

/-- VL_d: vector lines of a record on die `d`. -/
def vectorLines (s : State) (d : Nat) : Nat :=
  let w := ((allEntries s).filter (fun e => !e.trigger && e.die == d)).foldl (fun n e => max n (e.pos + 1)) 0
  ceilDiv w 512

/-- Bytes of a record on die `d`. -/
def recordSize (s : State) (d : Nat) : Nat := 64 * (1 + vectorLines s d)

/-- RING_RECORDS. -/
def ringRecords (s : State) : Nat :=
  (List.range 4).foldl (fun n d => min n (getF s (CAP_LINES d) / (1 + vectorLines s d))) (2 ^ 30)

/-- Bytes in the staging of die `d`, and the threshold HIGH (R383). -/
def stageOf (s : State) (d : Nat) : Nat := mget s.acq.stage 0 d
def stageHigh : Nat := 3 * 2 ^ 20

/-! ## Arming (R372, R373) -/

def asIdle : Nat := 0
def asWaitArm : Nat := 1
def asArmed : Nat := 2
def asPost : Nat := 3
def asDone : Nat := 4

/-- Why an arm is refused; OK: it is not. -/
def armRefusal (s : State) : Nat :=
  let a := getF s ASTATE
  if a = asWaitArm ∨ a = asArmed ∨ a = asPost then rsBusy
  else if ringRecords s < getF s ACQ_PRE + getF s ACQ_POST + 1 then rsBadParam
  else if (List.range 4).all (fun d => rangeInRegion s (getF s ACQ_OWNER) d (getF s (CAP_BASE_LINE d)) (getF s (CAP_LINES d)))
    then rsOk
  else rsBadParam

/-- Every arc counter is cleared. -/
def clearArcs (s : State) : State :=
  (List.range 16).foldl (fun a j => setFs a [(ST_A_COUNT j, 0), (ST_B_COUNT j, 0)]) s

/-- The arming boundary. -/
def armNow (s : State) : State :=
  let s1 := clearArcs (setFs s [(ASTATE, asArmed), (RECORDS_WRITTEN, 0), (ACQ_K, 0), (SSTATE, 0), (TRIGGERED, 0),
    (ACQ_AUTO_FORCED, 0)])
  { s1 with acq := { s1.acq with arm := .none, force := false, cycles := 0, post := 0 } }

/-- An arm that waits takes effect at a boundary: the next one, or that into ARM_CYCLE. -/
def armAtBoundary (s : State) : State :=
  match s.acq.arm with
  | .next => armNow s
  | .atCycle => if getF s CYCLE_NUM = getF s ARM_CYCLE then armNow s else s
  | _ => s

/-- An accepted arm: at once when the device stands at a boundary that suits it. -/
def armWith (s : State) (m : ArmMode) : State :=
  let s1 := { s with acq := { s.acq with arm := m } }
  let s2 := if m = .next then s1 else setF s1 ASTATE asWaitArm
  if atBoundary s2 then armAtBoundary s2 else s2

/-- Arm by register: a refused arm sets REFUSED. -/
def armRequest (s : State) (m : ArmMode) : State :=
  if armRefusal s = rsOk then armWith s m else setFlag s ACQ_REFUSED true

/-- A comparator with CAPTURE_START has fired: the engine that waits for it arms at the next boundary, and one that waits
for nothing is armed as by ARM (R331, R373). -/
def armByComparator (s : State) (c : Nat) : State :=
  match s.acq.arm with
  | .comparator k =>
    if k = c then
      let s1 := { s with acq := { s.acq with arm := .next } }
      if atBoundary s1 then armAtBoundary s1 else s1
    else setFlag s ACQ_REFUSED true
  | _ => armRequest s .next

/-- FORCE: the trigger is forced at the next commit, while ARMED. -/
def forceTrigger (s : State) : State :=
  if getF s ASTATE = asArmed then { s with acq := { s.acq with force := true } } else s

/-! ## The trigger sequencer (R379, R380) -/

/-- An arc's condition on the trigger bits. -/
def arcTrue (mode : Bool) (trig mask val : Nat) : Bool :=
  if mode then trig &&& mask != 0 else trig &&& mask == val

/-- The counters of the current state after the increments of a cycle. -/
def arcCounts (s : State) (trig : Nat) : Nat × Nat :=
  let j := getF s SSTATE
  let a := getF s (ST_A_COUNT j)
  let b := getF s (ST_B_COUNT j)
  (if flag s (ST_A_EN j) && arcTrue (flag s (ST_A_MODE j)) trig (getF s (ST_A_MASK j)) (getF s (ST_A_VAL j)) then a + 1 else a,
   if flag s (ST_B_EN j) && arcTrue (flag s (ST_B_MODE j)) trig (getF s (ST_B_MASK j)) (getF s (ST_B_VAL j)) then b + 1 else b)

/-- Enter a sequencer state: its counters are cleared. -/
def enterSeq (s : State) (j : Nat) : State := setFs s [(SSTATE, j), (ST_A_COUNT j, 0), (ST_B_COUNT j, 0)]

/-- One evaluation: the state after it, and whether the cycle is the trigger cycle. -/
def evalSequencer (s : State) (trig : Nat) : State × Bool :=
  let j := getF s SSTATE
  let c := arcCounts s trig
  let s1 := setFs s [(ST_A_COUNT j, c.1), (ST_B_COUNT j, c.2)]
  if c.1 = getF s (ST_A_COUNT_M1 j) + 1 then (enterSeq s1 (getF s (ST_A_NEXT j)), flag s (ST_A_TRIGGER j))
  else if c.2 = getF s (ST_B_COUNT_M1 j) + 1 then (enterSeq s1 (getF s (ST_B_NEXT j)), flag s (ST_B_TRIGGER j))
  else (s1, false)

/-! ## Mask tests (R381, R382) -/

/-- The word that test `m` looks at. -/
def maskWordOf (s : State) (trig m : Nat) : Nat :=
  if flag s (MT_SRC m) then bitsOf (vectorOf s (getF s (MT_DIE m))) (64 * getF s (MT_WORD m)) 64 else trig

/-- Test `m` fails. -/
def maskFails (s : State) (trig m : Nat) : Bool :=
  flag s (MT_EN m) && (maskWordOf s trig m ^^^ getF s (MT_EXPECT m)) &&& getF s (MT_CARE m) != 0

/-- What one failing test does, in cycle `n`. -/
def noteFailure (s : State) (n m : Nat) : State :=
  let s1 := addF s (MT_VIOL_COUNT m) 1
  let s2 := if flag s1 (MT_FV_VALID m) then s1 else setFs s1 [(MT_FIRST_VIOL m, n), (MT_FV_VALID m, 1)]
  if flag s2 (MT_STOP m) then { s2 with cyc := { s2.cyc with maskStop := true } } else s2

def noteFailures (s : State) (n : Nat) : List Nat → State
  | [] => s
  | m :: r => noteFailures (noteFailure s n m) n r

/-- The tests that fail. -/
def failing (s : State) (trig : Nat) : List Nat := (List.range 8).filter (maskFails s trig)

/-- Run every mask test; a failure raises MASK_VIOLATION once. -/
def runMasks (s : State) (n : Nat) (f : List Nat) : State :=
  if f.isEmpty then s else raiseEv (noteFailures s n f) evMaskViolation

/-! ## Records (R375 to R377, R384) -/

/-- The header line of a record. -/
def recordHeader (s : State) (n trig rflags sstate viol vl : Nat) : List Byte :=
  leBytes 8 n ++ leBytes 8 trig ++ leBytes 1 rflags ++ leBytes 1 (getF s ACQ_K) ++ leBytes 1 sstate ++ leBytes 1 viol
    ++ leBytes 2 vl ++ leBytes 2 0 ++ leBytes 6 s.acq.tickSec ++ leBytes 2 0 ++ leBytes 4 s.acq.tickNs
    ++ leBytes 4 (getF s RECORDS_WRITTEN) ++ leBytes 24 0

/-- Write the record of a cycle to the ring of each stack, through the staging of its die. -/
def writeRecord (s : State) (n trig rflags sstate viol : Nat) : State :=
  let own := getF s ACQ_OWNER
  let slot := getF s RECORDS_WRITTEN % ringRecords s
  let s1 := (List.range 4).foldl (fun a d =>
    let vl := vectorLines s d
    let addr := (getF s (HBM_BASE own d) + getF s (CAP_BASE_LINE d) + slot * (1 + vl)) * 64
    let b := dmaWrite a own d addr (recordHeader s n trig rflags sstate viol vl ++ leBytes (64 * vl) (vectorOf s d))
    { b with acq := { b.acq with stage := mset b.acq.stage 0 d (stageOf b d + recordSize s d) } }) s
  setF s1 RECORDS_WRITTEN (getF s RECORDS_WRITTEN + 1)

/-- The end of POST. -/
def finishPost (s : State) : State := raiseEv (setF s ASTATE asDone) evAcqDone

/-- The trigger record of cycle `n` is being written: its index, and POST begins. -/
def noteTrigger (s : State) (n : Nat) (forced : Bool) : State :=
  let i := getF s RECORDS_WRITTEN % 2 ^ 32
  let s1 := setFs s [(TRIGGERED, 1), (ACQ_AUTO_FORCED, forced.toNat), (TRIG_INDEX, i), (PRE_VALID, min (getF s ACQ_PRE) (getF s RECORDS_WRITTEN)),
    (TRIG_CYCLE, n), (ASTATE, asPost)]
  raiseEv { s1 with acq := { s1.acq with post := 0 } } evAcqTrigger

/-- Some die's staging holds more than HIGH. -/
def stageFull (s : State) : Bool := (List.range 4).any (fun d => decide (stageHigh < stageOf s d))

/-- K rises by 1 under DECIMATE (R384). -/
def raiseK (s : State) : State :=
  if flag s ACQ_POLICY ∧ stageFull s ∧ getF s ACQ_K < getF s DEC_MAX then setF s ACQ_K (getF s ACQ_K + 1) else s

/-- The trigger is forced in this cycle: a FORCE, or ACQ_AUTO cycles committed with this one (R377). -/
def forcedNow (s : State) : Bool :=
  s.acq.force || (getF s ACQ_AUTO != 0 && decide (getF s ACQ_AUTO ≤ s.acq.cycles + 1))

/-- The acquisition's part of action 5, while ARMED or in POST. -/
def recordCycle (s : State) (n trig viol : Nat) : State :=
  let armed := getF s ASTATE == asArmed
  let sstate := getF s SSTATE
  let e := if armed then evalSequencer s trig else (s, false)
  let trigger := armed && (e.2 || forcedNow s)
  let s1 := e.1
  if flag s ACQ_POLICY ∧ n % 2 ^ getF s ACQ_K ≠ 0 ∧ ¬ trigger then s1
  else
    let rflags := trigger.toNat + 2 * (trigger && !e.2).toNat + 4 * (getF s ACQ_K != 0).toNat + 8 * s.acq.wasReset.toNat
      + 16 * (viol != 0).toNat
    let s2 := if trigger then noteTrigger s1 n (!e.2) else s1
    let s3 := writeRecord s2 n trig rflags sstate viol
    let post := if armed then 0 else s.acq.post + 1
    let s4 := { s3 with acq := { s3.acq with post := post } }
    if getF s4 ASTATE = asPost ∧ getF s4 ACQ_POST ≤ post then finishPost s4 else s4

/-- Action 5 of the commit phase of cycle `n`: vectors and trigger bits are taken, mask tests run, the sequencer evaluates,
and the record is written (R131, R370, R377 to R384). -/
def capturePhase (s : State) (n : Nat) : State :=
  let trig := triggerBits s
  let f := failing s trig
  let s1 := runMasks (setF s TRIG_NOW trig) n f
  let a := getF s1 ASTATE
  let s2 := if a = asArmed ∨ a = asPost then
      let r := recordCycle s1 n trig (bitSet f)
      raiseK { r with acq := { r.acq with cycles := r.acq.cycles + 1, force := false } }
    else s1
  { s2 with acq := { s2.acq with wasReset := false } }

/-- The tick of a cycle that is to be recorded is held by the staging (R383, R384). -/
def throttled (s : State) : Bool :=
  let a := getF s ASTATE
  (a == asArmed || a == asPost)
    && (!flag s ACQ_POLICY || (getF s ACQ_K == getF s DEC_MAX && getF s CYCLE_NUM % 2 ^ getF s ACQ_K == 0))
    && (List.range 4).any (fun d => decide (stageHigh < stageOf s d + recordSize s d))

/-! ## Rows: the control bits (R394) -/

/-- ACQ_CTRL.ARM written with 1. -/
def execAcqCtrlArm (s : State) : Host.Outcome State Fault Refusal := byHost s (fun a => armRequest a .next)

/-- ACQ_CTRL.ARM_AT written with 1. -/
def execAcqCtrlArmAt (s : State) : Host.Outcome State Fault Refusal := byHost s (fun a => armRequest a .atCycle)

/-- ACQ_CTRL.DISARM written with 1. -/
def execAcqCtrlDisarm (s : State) : Host.Outcome State Fault Refusal := byHost s disarm

/-- ACQ_CTRL.FORCE written with 1. -/
def execAcqCtrlForce (s : State) : Host.Outcome State Fault Refusal := byHost s forceTrigger

/-- ACQ_AUTO cycles pass without a trigger: the commit at hand forces it (R377). -/
def execAutoTrigger (s : State) : Host.Outcome State Fault Refusal :=
  if getF s ACQ_AUTO ≠ 0 ∧ getF s ACQ_AUTO ≤ s.acq.cycles + 1 then .next (forceTrigger s) else .next s

/-! ## Commands (R393) -/

/-- A capture command comes from the owner. -/
def capOwner : State → Request → Nat → Bool := fun s _ r => r == getF s ACQ_OWNER

/-- A trace command comes from the owner. -/
def trcOwner : State → Request → Nat → Bool := fun s _ r => r == getF s TRC_OWNER

/-- The mode that ACQ_ARM names. -/
def armModeOf (q : Request) : ArmMode :=
  if par q 0 1 = 0 then .next else if par q 0 1 = 1 then .atCycle else .comparator (par q 1 1)

/-- ACQ_ARM. A refused arm sets REFUSED as well as its status. -/
def cmdAcqArm : Cmd where
  opcode := 0x0601
  ringsOnly := false
  length := lenIs 16
  scope := .plain
  right := capOwner
  params := fun _ q _ => decide (par q 0 1 ≤ 2) && decide (par q 1 1 ≤ 7) && zeroPar q 2 6 && decide (par q 8 8 < 2 ^ 48)
  ready := always
  run := fun s q _ =>
    let st := armRefusal s
    if st ≠ rsOk then .final (setFlag s ACQ_REFUSED true) st []
    else
      let s1 := if par q 0 1 = 1 then setF s ARM_CYCLE (par q 8 8) else s
      okReply (armWith s1 (armModeOf q)) []

def execAcqArm (r : BitVec 5) (p : Packet) (s : State) : Host.Outcome State Fault Refusal := fromRing cmdAcqArm r p s

/-- ACQ_DISARM. -/
def cmdAcqDisarm : Cmd where
  opcode := 0x0602
  ringsOnly := false
  length := lenIs 0
  scope := .plain
  right := capOwner
  params := noParams
  ready := always
  run := fun s _ _ => okReply (disarm s) []

def execAcqDisarm (r : BitVec 5) (p : Packet) (s : State) : Host.Outcome State Fault Refusal := fromRing cmdAcqDisarm r p s

/-- ACQ_FORCE: BAD_PARAM unless ARMED. -/
def cmdAcqForce : Cmd where
  opcode := 0x0603
  ringsOnly := false
  length := lenIs 0
  scope := .plain
  right := capOwner
  params := fun s _ _ => getF s ASTATE == asArmed
  ready := always
  run := fun s _ _ => okReply (forceTrigger s) []

def execAcqForce (r : BitVec 5) (p : Packet) (s : State) : Host.Outcome State Fault Refusal := fromRing cmdAcqForce r p s

/-- The ACQ_STATUS register. -/
def acqStatusWord (s : State) : Nat :=
  getF s ASTATE + getF s SSTATE * 2 ^ 3 + getF s ACQ_K * 2 ^ 7 + getF s TRIGGERED * 2 ^ 11 + getF s ACQ_AUTO_FORCED * 2 ^ 12
    + getF s ACQ_INTERRUPTED * 2 ^ 13 + getF s ACQ_REFUSED * 2 ^ 14

/-- ACQ_STATUS. -/
def cmdAcqStatus : Cmd where
  opcode := 0x0604
  ringsOnly := false
  length := lenIs 0
  scope := .plain
  right := capOwner
  params := noParams
  ready := always
  run := fun s _ _ => okReply s (leBytes 4 (acqStatusWord s) ++ leBytes 4 (getF s PRE_VALID) ++ leBytes 4 (getF s TRIG_INDEX)
    ++ leBytes 4 0 ++ leBytes 8 (getF s TRIG_CYCLE) ++ leBytes 8 (getF s RECORDS_WRITTEN))

def execAcqStatus (r : BitVec 5) (p : Packet) (s : State) : Host.Outcome State Fault Refusal := fromRing cmdAcqStatus r p s

/-- The capture-map entries of a partition. -/
def mapEntries (s : State) (p : Nat) : List CapEntry := mget s.acq.entries [] p

/-- CAP_MAP_READ. -/
def cmdCapMapRead : Cmd where
  opcode := 0x0605
  ringsOnly := true
  length := lenIs 24
  scope := .plain
  right := capOwner
  params := fun s q _ => decide (par q 0 1 ≤ 15) && zeroPar q 1 3 && zeroPar q 12 4
    && decide (par q 4 4 + par q 8 4 ≤ (mapEntries s (par q 0 1)).length)
  ready := always
  run := fun s q r =>
    let l := ((mapEntries s (par q 0 1)).drop (par q 4 4)).take (par q 8 4)
    okReply (hostWriteList s (fnOfPart r) (par q 16 8) (l.flatMap (fun e => leBytes 8 e.raw.toNat))) []

def execCapMapRead (r : BitVec 5) (p : Packet) (s : State) : Host.Outcome State Fault Refusal := fromRing cmdCapMapRead r p s

/-- Write the fields of TRC_CTRL other than EN. -/
def setTrcCtrl (s : State) (v : Nat) : State :=
  setFs s [(TRC_SINK, bitsOf v 1 2), (TRC_STOP_FULL, bitsOf v 3 1), (TRC_OWNER, bitsOf v 4 4), (TRC_SEQ_LEVEL, bitsOf v 8 2),
    (TRC_MULE_EN, bitsOf v 10 4), (TRC_TE_EN, bitsOf v 14 1), (TRC_LINK_EN, bitsOf v 15 1), (TRC_SYNC_PERIOD, bitsOf v 16 4)]

/-- TRC_ENABLE: only partition 0 changes the owner. -/
def cmdTrcEnable : Cmd where
  opcode := 0x0701
  ringsOnly := false
  length := lenIs 8
  scope := .plain
  right := fun s q r => trcOwner s q r && (r == 0 || bitsOf (par q 0 4) 4 4 == getF s TRC_OWNER)
  params := fun _ q _ => decide (par q 0 4 < 2 ^ 20) && zeroPar q 4 4
  ready := fun s _ _ => busyUnless (!flag s TRC_EN)
  run := fun s q _ => okReply (enableTrace (fixRoutes s (setTrcCtrl s (par q 0 4)) [evTrcOverflow])) []

def execTrcEnable (r : BitVec 5) (p : Packet) (s : State) : Host.Outcome State Fault Refusal := fromRing cmdTrcEnable r p s

/-- TRC_DISABLE: OK once the funnel has drained; BUSY while an earlier one waits for that. -/
def cmdTrcDisable : Cmd where
  opcode := 0x0702
  ringsOnly := false
  length := lenIs 0
  scope := .plain
  right := trcOwner
  params := noParams
  ready := fun s _ _ => busyUnless s.trc.drain.isNone
  run := fun s _ _ =>
    let s1 := setFlag s TRC_EN false
    if (nextSource s1).isNone then okReply s1 []
    else .pending s (fun a id => let b := setFlag a TRC_EN false; { b with trc := { b.trc with drain := some id } })

def execTrcDisable (r : BitVec 5) (p : Packet) (s : State) : Host.Outcome State Fault Refusal := fromRing cmdTrcDisable r p s

/-- TRACE_DRAIN_COMPLETE: the funnel has written what it held, and TRC_DISABLE sends its OK. -/
def execTraceDrainComplete (s : State) : Host.Outcome State Fault Refusal :=
  match s.trc.drain with
  | none => .next s
  | some id =>
    let s1 := drainFunnel s
    .next (finalReply { s1 with trc := { s1.trc with drain := none } } id rsOk [])

end Sys2Proof.Machine
end

