-- ==== Sys2Proof/Machine/Options.lean ====
section
/-!
DEFINITION. The option words (R236): their defaults, the fields that are read, and their CRC.
-/
namespace Sys2Proof.Machine
open Sys2Proof Reg

/-- Byte `i` of the clockIdentity: the MAC as an EUI-64, with FF FE between its halves (R236). -/
def euiByte (i : Nat) : Byte := if i < 3 then Config.fuseMac i else if i = 3 then 0xFF else if i = 4 then 0xFE else Config.fuseMac (i - 2)

/-- The default of byte `a` of the option words. -/
def optDefault (a : Nat) : Byte :=
  if a = 0x000 then 0x53 else if a = 0x001 then 0x4F else if a = 0x002 then 0x50 else if a = 0x003 then 0x54
  else if a = 0x004 then 0x01
  else if a = 0x008 then 0x4C
  else if a = 0x009 then 0x01
  else if a = 0x00C then 0xE8 else if a = 0x00D then 0x03
  else if a = 0x010 then 0x00 else if a = 0x011 then 0xC2 else if a = 0x012 then 0x01
  else if a = 0x018 then 0xA0 else if a = 0x019 then 0x53
  else if 0x01A ≤ a ∧ a < 0x020 then Config.fuseMac (a - 0x01A)
  else if 0x028 ≤ a ∧ a < 0x030 then euiByte (a - 0x028)
  else if a = 0x030 then 0x80 else if a = 0x031 then 0x80 else if a = 0x032 then 0xF8 else if a = 0x033 then 0xFE
  else if a = 0x034 ∨ a = 0x035 then 0xFF
  else if 0x100 ≤ a ∧ a < 0x160 then 0x7F
  else if 0x180 ≤ a ∧ a < 0x300 then
    (if a % 4 = 0 then 0 else if a % 4 = 1 then 0xFB else if a % 4 = 2 then 0xF6 else 0x14)
  else 0

/-- Byte `a` of a set of option words. -/
def optByte (m : Map Byte) (a : Nat) : Byte := mget m (optDefault a) a

/-- Write byte `a`. -/
def setOptByte (m : Map Byte) (a : Nat) (b : Byte) : Map Byte := mset m (optDefault a) a b

/-- `n` bytes from offset `a`, little-endian. -/
def optField (m : Map Byte) (a : Nat) : Nat → Nat
  | 0 => 0
  | n + 1 => (optByte m a).toNat + 256 * optField m (a + 1) n

/-- A list of bytes from offset `a`. -/
def optList (m : Map Byte) (a : Nat) : Nat → List Byte
  | 0 => []
  | n + 1 => optByte m a :: optList m (a + 1) n

/-- Write a list of bytes from offset `a`. -/
def setOptList (m : Map Byte) (a : Nat) : List Byte → Map Byte
  | [] => m
  | b :: r => setOptList (setOptByte m a b) (a + 1) r

/-- A stored value outside its range is clamped to it (R236). -/
def clampTo (lo hi v : Nat) : Nat := max lo (min hi v)

/-- PTP_DOMAIN in force. -/
def ptpDomain (s : State) : Byte := optByte s.nv.inForce 0x00B

/-- SMB_ADDR in force. -/
def smbAddr (s : State) : Nat := (optByte s.nv.inForce 0x008).toNat % 128

/-- IPV4 and UDP_PORT in force. -/
def ipv4 (s : State) : Nat := optField s.nv.inForce 0x014 4
def udpPort (s : State) : Nat := optField s.nv.inForce 0x018 2

end Sys2Proof.Machine
end

