-- ==== Sys2Proof/Machine/Time.lean ====
section
/-!
DEFINITION. The time counter (R310 to R312), comparators (R328 to R331), PACED instants (R138) and the halt monitor (R332 to R334).
-/
namespace Sys2Proof.Machine
open Sys2Proof Reg

/-! ## The counter (R311, R312) -/

/-- RATE_ADJ as a signed number. -/
def rateAdj (s : State) : Int := signedOf 32 (getF s RATE_ADJ)

/-- INC in units of 2^-40 ns. -/
def incOf (rate : Int) : Nat :=
  let x := 2 * rate * (2 ^ 40 : Int)
  let q := x / 1000000000 + (if x % 1000000000 ≠ 0 ∧ Config.incUp rate then 1 else 0)
  (2 * (2 ^ 40 : Int) + q).toNat

/-- Put a time that is given in units of 2^-40 ns. -/
def putTime40 (s : State) (v : Nat) : State :=
  let ns := v / 2 ^ 40
  { s with time := { s.time with sec := BitVec.ofNat 48 (ns / 1000000000), ns := ns % 1000000000, frac := BitVec.ofNat 40 v } }

/-- Local time in units of 2^-40 ns. -/
def now40 (s : State) : Nat := nowNs s * 2 ^ 40 + s.time.frac.toNat

/-- One period of the 500 MHz time clock, which runs once the bring-up has reached step 2 (R515). -/
def timePeriod (s : State) : State :=
  if s.pw.boot = .off ∨ s.pw.boot = .hold then s else fireOps (putTime40 { s with time := { s.time with periods := s.time.periods + 1 } } (now40 s + incOf (rateAdj s)))

/-- A rate trim, clamped to its limits. -/
def clampRate (v : Int) : Int := max (-500000) (min 500000 v)

def setRate (s : State) (v : Int) : State := setF s RATE_ADJ (patternOf 32 (clampRate v))

/-- The host owns RATE_ADJ: ROLE OFF, or a Rooster with a LOCAL source (R312). -/
def hostOwnsRate (s : State) : Bool :=
  getF s TIME_ROLE == 0 || getF s TIME_ROLE == 3 || (getF s TIME_ROLE == 2 && !flag s TIME_SOURCE)

/-- A host write of RATE_ADJ. -/
def writeRate (s : State) (v : Nat) : State :=
  if hostOwnsRate s then setRate s (signedOf 32 v) else setFlag s STEP_REFUSED true

/-- RATE_ADJ written by the host. -/
def execRateAdj (v : BitVec 32) (s : State) : Host.Outcome State Fault Refusal := byHost s (fun a => writeRate a v.toNat)

/-! ## Comparators (R328 to R331) -/

/-- L(t) of the target, and of now. -/
def cmpTarget (s : State) (j : Nat) : Nat := getF s (CMP_TARGET_SEC j) * 1000000000 + getF s (CMP_TARGET_NS j)

/-- D of R328. -/
def cmpDelta (s : State) (j : Nat) : Int := signedOf 64 (((nowNs s : Int) - (cmpTarget s j : Int)) % (2 ^ 64 : Int)).toNat

/-- The comparator is armed for the host. -/
def cmpArmed (s : State) (j : Nat) : Bool := mget s.time.armed false j && cmpOwner s j == 0

/-- The comparator's target has been reached. -/
def cmpDue (s : State) (j : Nat) : Bool := cmpArmed s j && decide (0 ≤ cmpDelta s j)

/-- Writing the control word or target of a comparator rearms it, or disarms it with MODE off (R329). -/
def rearmCmp (s : State) (j : Nat) : State := setArmed s j (getF s (CMP_MODE j) == 1 || getF s (CMP_MODE j) == 2)

/-- After a fire: PERIODIC with a period moves the target into the future; else the comparator is spent (R329). -/
def afterFire (s : State) (j : Nat) : State :=
  let p := getF s (CMP_PERIOD_NS j)
  if getF s (CMP_MODE j) = 2 ∧ p ≠ 0 then
    let k := (cmpDelta s j).toNat / p + 1
    let t := cmpTarget s j + k * p
    setFs s [(CMP_TARGET_SEC j, t / 1000000000), (CMP_TARGET_NS j, t % 1000000000)]
  else setArmed s j false

/-- A host-owned comparator fires (R331). -/
def fireCmp (s : State) (j : Nat) : State :=
  let s1 := afterFire (raiseEv (setFlag s (CMP_FIRED j) true) (evCmpFired j)) j
  if flag s (CMP_ACTION j) then armByComparator s1 j else s1

/-- Fire each of a list. -/
def fireAll (s : State) : List Nat → State
  | [] => s
  | j :: r => fireAll (fireCmp s j) r

/-- COMPARATOR_FIRE: an armed comparator has reached its target. -/
def execComparatorFire (j : BitVec 3) (s : State) : Host.Outcome State Fault Refusal :=
  if cmpOwner s j.toNat = 2 then .next (fireOps s)
  else if cmpDue s j.toNat then .next (fireCmp s j.toNat) else .next s

/-- A write of word `w` of comparator `j`: ignored while another owner holds it; a new control word or target rearms it. -/
def writeCmp (s : State) (j w v : Nat) : State :=
  if cmpOwner s j ≠ 0 then s
  else if w = 0 then
    let s1 := setFs s [(CMP_MODE j, bitsOf v 0 2), (CMP_ACTION j, bitsOf v 2 1)]
    rearmCmp (if bitOf v 3 then setFlag s1 (CMP_FIRED j) false else s1) j
  else if w = 1 then rearmCmp (setF s (CMP_TARGET_NS j) v) j
  else if w = 2 then rearmCmp (setF s (CMP_TARGET_SEC j) (getF s (CMP_TARGET_SEC j) / 2 ^ 32 * 2 ^ 32 + v % 2 ^ 32)) j
  else if w = 3 then rearmCmp (setF s (CMP_TARGET_SEC j) (getF s (CMP_TARGET_SEC j) % 2 ^ 32 + v % 2 ^ 16 * 2 ^ 32)) j
  else if w = 4 then setF s (CMP_PERIOD_NS j) v
  else s

/-- The bits of word `w` of a comparator's block that a register holds (R336). -/
def cmpKnown (w : Nat) : Nat :=
  match w with
  | 0 => 0x3F
  | 1 => 2 ^ 30 - 1
  | 3 => 2 ^ 16 - 1
  | _ => 2 ^ 32 - 1

/-- COMPARATOR_WRITE: one 32-bit word of a comparator's block; its last three words hold no register. -/
def execComparatorWrite (j : BitVec 3) (w : BitVec 3) (v : BitVec 32) (s : State) : Host.Outcome State Fault Refusal :=
  byHost s (fun a =>
    if 5 ≤ w.toNat then addF a UNMAPPED_ACCESS 1 else writeCmp (countReserved a (cmpKnown w.toNat) v.toNat) j.toNat w.toNat v.toNat)

/-! ## PACED instants (R138) -/

/-- PERIOD in units of 2^-16 ns, and T0 in nanoseconds. -/
def pacePeriod (s : State) : Nat := getF s PACE_PERIOD_NS * 65536 + getF s PACE_PERIOD_FRAC
def paceT0 (s : State) : Nat := getF s PACE_T0_SEC * 1000000000 + getF s PACE_T0_NS

/-- Instant `k` in units of 2^-16 ns, computed exactly. -/
def instantAt (s : State) (k : Nat) : Nat := paceT0 s * 65536 + k * pacePeriod s

/-- The number of instants at or before now. -/
def instantsPassed (s : State) : Nat :=
  if pacePeriod s = 0 ∨ now16 s < paceT0 s * 65536 then 0 else (now16 s - paceT0 s * 65536) / pacePeriod s + 1

/-! ## Halt inputs (R332 to R334) -/

/-- Both channels asserted. -/
def bothHalt (s : State) : Bool := flag s HALT_A && flag s HALT_B

/-- RUN is refused: both channels asserted, or DISC latched (R334). -/
def haltBlocks (s : State) : Bool := bothHalt s || flag s HALT_DISC_LATCH

/-- A stop by the halt inputs waits for the next stop decision (R142, R333). -/
def haltStop (s : State) : Bool := s.time.haltLatch || bothHalt s

/-- HALT_DISC, clamped to its limits (R334). -/
def haltDisc (s : State) : Nat := clampTo 100 100000 (getF s HALT_DISC)

/-- While the device runs, a stop is latched. -/
def latchHalt (s : State) : State :=
  if runState s = stRunning then { s with time := { s.time with haltLatch := true } } else s

/-- A disagreement has lasted HALT_DISC (R333). -/
def discrepancy (s : State) : State :=
  let s1 := setFlag { s with time := { s.time with disagree := false } } HALT_DISC_LATCH true
  latchHalt (raiseEv (recordFault s1 fcHaltDiscrepancy (locDevice s1)) evHaltDiscrepancy)

/-- The filtered levels become `a` and `b`; a disagreement that ends has lasted `us` microseconds. -/
def execHaltInput (a : Bool) (b : Bool) (us : BitVec 32) (s : State) : Host.Outcome State Fault Refusal :=
  let was := flag s HALT_A != flag s HALT_B
  let s1 := setFlag (setFlag s HALT_A a) HALT_B b
  let s2 :=
    if was ∧ a = b then
      let s' := setF s1 HALT_LAST_US us.toNat
      if ¬ s.time.disagree then s'
      else if us.toNat < haltDisc s then
        addF { s' with time := { s'.time with disagree := false } } HALT_MISMATCH 1
      else discrepancy s'
    else if ¬ was ∧ a ≠ b then { s1 with time := { s1.time with disagree := true } }
    else s1
  .next (if a ∧ b then latchHalt s2 else s2)

/-- HALT_DISCREPANCY: the disagreement in progress has lasted HALT_DISC. -/
def execHaltDiscrepancy (s : State) : Host.Outcome State Fault Refusal :=
  if s.time.disagree ∧ (flag s HALT_A != flag s HALT_B) = true then .next (discrepancy s) else .next s

/-- DISC is cleared only while both channels are deasserted. -/
def clearDisc (s : State) : State :=
  if flag s HALT_A ∨ flag s HALT_B then s else setFlag s HALT_DISC_LATCH false

/-- DISC written with 1. -/
def execDiscClear (s : State) : Host.Outcome State Fault Refusal := byHost s clearDisc

end Sys2Proof.Machine
end

