-- ==== Sys2Proof/Machine/Cycle.lean ====
section
/-!
DEFINITION. The major cycle (R118 to R147): release of the tick, die done, the commit phase, the stop decision, PACED
instants, RUN and STOP, and the die watchdog.
-/
namespace Sys2Proof.Machine
open Sys2Proof Reg

/-! ## Release of the tick (R136 to R140) -/

/-- A partner on an UP trunk is too far behind (R140). -/
def skewBlocks (s : State) : Bool :=
  (upTrunks s).any (fun t => decide (getF s (TS_PARTNER_CYCLE t) + getF s SKEW_LIMIT < getF s CYCLE_NUM))

/-- Tiles that the image assigns and that are not loaded (R31). -/
def tilesMissing (s : State) : List Nat :=
  (List.range 128).filter (fun t => mget s.eng.assigned false t && !flag s (TILE_LOADED t))

/-- Every release condition but the skew limiter, THROTTLE and the PACED instant. -/
def releaseReady (s : State) : Bool :=
  atBoundary s && runState s == stRunning && stepClock s && !s.cyc.relocking && !systemHolds s && !loadHolds s

/-- The halves that take part in cycles, in order of cluster. -/
def runningHalves (s : State) : List Nat := (s.eng.prog.map Prod.fst).filter (fun k => halfRuns s (pcOf k) (halfB k))

/-- The block table and program register of a half keep R118 and R120. -/
def tableGood (s : State) (pc : Nat) (half : Bool) : Bool :=
  let p := progOf s pc half
  let n := progBlocks p
  let b := blockAt s pc half
  (!foldedAt s pc || (decide (n ≤ 32) && decide (progLen p ≤ 1024)))
    && (List.range n).all (fun j =>
      blkFirst (b j) == (if j = 0 then 0 else blkLast (b (j - 1)) + 1) && decide (blkFirst (b j) ≤ blkLast (b j))
        && (!blkCond (b j) || blkSlot (b j) < 0x600 || 0x7C0 ≤ blkSlot (b j)))
    && blkLast (b (n - 1)) + 1 == progLen p

/-- BLOCK_TABLE for every half whose table is inconsistent at the tick (R121). The record holds the lowest location. -/
def checkTables (s : State) : State :=
  let bad := (runningHalves s).filter (fun k => !tableGood s (pcOf k) (halfB k))
  bad.foldl (fun a k => raiseStepFault a (pcOf k) fcBlockTable (locOf s (pcOf k) (halfB k) 0 0) 0) s

/-- Bound message ports. -/
def boundPorts (s : State) : List Nat := (List.range 2048).filter (fun i => flag s (P_BOUND i))

/-- The flags of a port for the next cycle (R92). -/
def samplePort (s : State) (i : Nat) : State :=
  if flag s (P_DIR i) then setFlag s (P_FULL i) (!roomIn s (getF s (P_QBASE i)))
  else setFlag s (P_VALID i) (msgAt s i).cur.isSome

/-- A cycle that starts with a port's flag at 1 is counted (R366). -/
def countFlag (s : State) (i : Nat) : State :=
  if (if flag s (P_DIR i) then flag s (P_FULL i) else flag s (P_VALID i)) then addF s (P_VALID_CYCLES i) 1 else s

/-- The state of the cycle that starts next: ACT, FIRST, PARITY and the MPF flags (R131, R135). -/
def prepareCycle (s : State) : State :=
  let n := getF s CYCLE_NUM
  let s1 := { (drawFree s) with cyc := { s.cyc with act := actOf s n, first := n == 0, parity := n % 2 == 1, ready := true } }
  (boundPorts s1).foldl samplePort s1

/-- Decide a tick-resolved block: a skipped one is counted (R125, R147). -/
def resolveBlock (s : State) (pc : Nat) (half : Bool) (j : Nat) : State :=
  match blockTaken s pc half j with
  | some t => traceBlock (if t then s else addF s (BLOCK_SKIP (dieOfPc pc)) 1) pc half j t none
  | none => s

/-- The tick-resolved blocks of a list of halves. -/
def resolveBlocks (s : State) : List Nat → State
  | [] => s
  | k :: r => resolveBlocks ((blockIdx s (pcOf k) (halfB k)).foldl (fun a j => resolveBlock a (pcOf k) (halfB k) j) s) r

/-- A die has a loaded tile. -/
def dieLoaded (s : State) (d : Nat) : Bool := (List.range 32).any (fun i => flag s (TILE_LOADED (d * 32 + i)))

/-- The period from the previous tick is noted (R146, R261). -/
def notePeriod (s : State) (period : Nat) : State :=
  let s1 := { s with sys := { s.sys with prevPeriod := getF s LAST_PERIOD, prevMhz := s.sys.lastMhz,
                                         lastMhz := getF s STEP_MHZ_NOW } }
  setFs s1 [(LAST_PERIOD, min period (maxOf 32)), (MAX_PERIOD, max (getF s MAX_PERIOD) (min period (maxOf 32)))]

/-- The tick of the cycle at hand: every loaded cluster begins (R129, R133, R135 to R137). Action 8 of the commit before it has prepared
its state; for the first cycle after a load, a restore or a RESET_AT that is done now (R122). -/
def startCycle (s : State) (period : Nat) : State :=
  let s0 := clearAllMmps (if s.cyc.ready then s else prepareCycle s)
  let s1 := setFlag (notePeriod s0 period) IN_CYCLE true
  let s2 := { s1 with
    eng := { s1.eng with nxt := s1.eng.cur, half := [] },
    cyc := { s1.cyc with
      faulted := false, late := none, faultAt := none, lost := [], dieNow := [], stalled := false, skewSeen := false, throttleSeen := false,
      overran := false, dieHolds := [], dieDone := (List.range 4).foldl (fun m d => mset m false d (!dieLoaded s d)) [],
      ready := false, stopc := none, maskStop := false, driven := [], asserted := [], assertAt := [] },
    acq := { s1.acq with tickSec := s1.time.sec.toNat, tickNs := s1.time.ns },
    qs := { s1.qs with logged := [] }
    sys := { s1.sys with snapOpen := none } }
  let s3 := (boundPorts s2).foldl countFlag (sampleInbound s2)
  checkTables (resolveBlocks s3 (runningHalves s3))

/-- A release decision: TILE_NOT_LOADED when an assigned tile is not loaded, else the tick (R31, R136). -/
def releaseTick (s : State) (period : Nat) : State :=
  match tilesMissing s with
  | [] => startCycle s period
  | t :: _ => raiseFault s fcTileNotLoaded (locWord (getF s DEV_ID) (t / 32) (t % 32) 0 0 0 0)

/-- A FREE tick that is due is delayed: counted once (R146). -/
def countDelay (s : State) : State :=
  let sk := skewBlocks s && !s.cyc.skewSeen
  let th := throttled s && !s.cyc.throttleSeen
  let s1 := { s with cyc := { s.cyc with skewSeen := s.cyc.skewSeen || sk, throttleSeen := s.cyc.throttleSeen || th } }
  let s2 := if sk then addF s1 SKEW_WAIT_COUNT 1 else s1
  if th then addF (addF s2 THROTTLE_WAIT_COUNT 1) ACQ_THROTTLE 1 else s2

/-- TICK in FREE mode; `period` is the measured time since the previous tick, in step clocks. -/
def execTick (period : BitVec 32) (s : State) : Host.Outcome State Fault Refusal :=
  if ¬ releaseReady s ∨ flag s SEQ_MODE then .next s
  else if skewBlocks s ∨ throttled s then .next (countDelay s)
  else .next (releaseTick s period.toNat)

/-- An instant passes while the cycle is not complete: an overrun (R139). -/
def overrun (s : State) : State :=
  let s1 := setFlag (addF s OVERRUN_COUNT 1) OVERRUN true
  if s.cyc.overran then s1 else raiseEv { s1 with cyc := { s1.cyc with overran := true } } evOverrun

/-- An instant missed for the skew limiter or THROTTLE is counted there. -/
def missInstant (s : State) : State :=
  let s1 := if skewBlocks s then addF s SKEW_WAIT_COUNT 1 else s
  if throttled s then addF (addF s1 THROTTLE_WAIT_COUNT 1) ACQ_THROTTLE 1 else s1

/-- PACED_INSTANT: instant `k` has been reached. -/
def execPacedInstant (k : Nat) (period : BitVec 32) (s : State) : Host.Outcome State Fault Refusal :=
  if ¬ flag s SEQ_MODE ∨ runState s ≠ stRunning ∨ k ≠ s.cyc.instant ∨ instantsPassed s ≤ k then .next s
  else
    let s1 := { s with cyc := { s.cyc with instant := k + 1 } }
    if ¬ atBoundary s then .next (overrun s1)
    else if skewBlocks s ∨ throttled s then .next (missInstant s1)
    else if releaseReady s then .next (releaseTick s1 period.toNat)
    else .next s1

/-! ## Die done (R129, R130) -/

/-- Every cluster of the die is done and its model memory ports have nothing left in flight. -/
def dieReady (s : State) (d : Nat) : Bool :=
  ((s.eng.prog.map Prod.fst).filter (fun k => dieOfPc (pcOf k) == d)).all (fun k => atEnd s (pcOf k) (halfB k))
    && s.eng.mmp.all (fun e => e.1 / 32 / 32 != d || (e.2.requests.isEmpty && e.2.flying.all (fun a => a.dead)))

/-- DIE_DONE. -/
def execDieDone (die : BitVec 2) (s : State) : Host.Outcome State Fault Refusal :=
  if flag s IN_CYCLE ∧ dieReady s die.toNat then
    .next { s with cyc := { s.cyc with dieDone := mset s.cyc.dieDone false die.toNat true } }
  else .next s

/-! ## The commit phase (R131 to R135) -/

/-- The device is done. -/
def deviceDone (s : State) : Bool := flag s IN_CYCLE && (List.range 4).all (fun d => mget s.cyc.dieDone false d)

/-- Outbound target bits driven in the cycle (R72). -/
def driveTargets (s : State) : State :=
  let t := s.cyc.driven.foldl (fun m e => match e.2 with | some v => mset m false e.1 v | none => m) s.cyc.tout
  { s with cyc := { s.cyc with tout := t } }

/-- The cut-off of an inbound port: the best eligible record for cycle `n` is staged (R350, R351). -/
def stagePort (s : State) (i n : Nat) : State := setMsg s i { msgAt s i with staged := bestFor s i n }

/-- Inbound ports in order: the staged record is frozen, pops take effect, records become current for cycle `n + 1`. -/
def deliverPorts (s : State) (n : Nat) : List Nat → State
  | [] => s
  | i :: r =>
    if flag s (P_DIR i) then deliverPorts s n r else deliverPorts (deliverPort (stagePort s i (n + 1)) i (n + 1)) n r

/-- Outbound ports in order: pushes; the ports that wait join the list. -/
def pushPorts (s : State) (n : Nat) : List Nat → State
  | [] => s
  | i :: r =>
    if flag s (P_DIR i) then
      let p := pushPort s i n
      pushPorts (if p.2 then { p.1 with cyc := { p.1.cyc with waiting := p.1.cyc.waiting ++ [i] } } else p.1) n r
    else pushPorts s n r

/-- Corrections of fetched words are written back and counted with the commit (R46). -/
def scrubWords (s : State) : List (Nat × Nat) → State
  | [] => s
  | (k, e) :: r => scrubWords (if e = 3 then countCorrected { s with eng := { s.eng with imemErr := mset s.eng.imemErr 0 k 0 } } (tileOfWord k) else s) r

/-- E of a die: the step clocks to the end of the last issue, over the cluster that reaches its end last (R148, R390). -/
def dieClocks (s : State) (d : Nat) : Nat :=
  ((runningHalves s).map pcOf).foldl (fun m pc =>
    let steps := fun (half : Bool) => if halfRuns s pc half then takenBefore s pc half (progLen (progOf s pc half)) else 0
    if dieOfPc pc = d then max m (steps false + steps true + mget s.cyc.lost 0 pc) else m) 0

/-- CYCLE: a die's packet at the end of a cycle (R390). -/
def traceCycle (s : State) (d n : Nat) : State :=
  let seen := (List.range 32).any (fun i => flag s (TILE_LOADED (d * 32 + i)) && traceAllowed s (getF s (TILE_PARTITION (d * 32 + i))))
  if getF s TRC_SEQ_LEVEL = 0 ∨ seen = false then s
  else formPacket s (srcSeq d) 0x10 (leBytes 6 n ++ leBytes 4 (dieClocks s d) ++ leBytes 4 (mget s.cyc.dieHolds 0 d))

/-- The cycle number has reached the limit of R12. -/
def atLimit (s : State) : Bool := getF s CYCLE_NUM == maxOf 48

/-- Causes of the stop decision at hand, lowest code first (R142); `count`: RUN_COUNT has reached 0, `limit`: the cycle number
would pass its limit. -/
def stopCauses (s : State) (count limit : Bool) : List Nat :=
  [(1, s.cyc.stopReq), (2, s.cyc.stopc.isSome), (4, haltStop s), (5, s.cyc.maskStop), (6, count), (7, limit)].filterMap
    (fun e => if e.2 then some e.1 else none)

/-- What a cause records when it stops the device. -/
def noteCause (s : State) (c : Nat) : State :=
  if c = 2 then setF s STOP_LOC (s.cyc.stopc.getD (0, 0)).2
  else if c = 4 then raiseEv s evHaltStop
  else s

/-- The stop decision (action 9): a local cause stops the system at one boundary; the limit of R12 stops every device by
itself (R142, R263). -/
def stopDecision (s0 : State) (count limit : Bool) : State :=
  let s := if limit then raiseEv s0 evCycleLimit else s0
  let l := stopCauses s count limit
  let s1 := { s with cyc := { s.cyc with stopReq := false }, time := { s.time with haltLatch := false } }
  match l with
  | [] => s1
  | c :: _ =>
    let own := match s1.sys.stop with | some x => x.cause != 0 | none => false
    if own then s1
    else if c = 7 then stopDevice s1 7
    else localStop (noteCause s1 c) c

/-- A step-clock change that waits begins to relock at a boundary (R36). -/
def beginRelock (s : State) : State :=
  if s.cyc.clockReq.isSome ∧ atBoundary s then { s with cyc := { s.cyc with relocking := true } } else s

/-- A stop whose boundary has been reached (R263). -/
def reachStop (s : State) : State :=
  match s.sys.stop with
  | none => s
  | some x =>
    match x.target with
    | some m => if m ≤ getF s CYCLE_NUM then finishStop s else s
    | none => markStop s

/-- What happens at a boundary after the commit. -/
def atEndOfCommit (s : State) : State :=
  beginRelock (refreshTb (armAtBoundary (progressAll (reachStop (applyNotice s)))))

/-- The half of a folded cluster that issued last in the cycle that ends lets the other one issue first in the next (R128). -/
def passLead (s : State) (pc : Nat) : State :=
  let steps := fun (half : Bool) => if halfRuns s pc half then takenBefore s pc half (progLen (progOf s pc half)) else 0
  let b := mget s.cyc.lead false pc
  if steps (!b) < steps b then { s with cyc := { s.cyc with lead := mset s.cyc.lead false pc (!b) } } else s

/-- The folded physical clusters, each once. -/
def foldedClusters (s : State) : List Nat := ((s.eng.prog.map (fun e => pcOf e.1)).filter (foldedAt s)).eraseDups

/-- Requests of the ending cycle on message ports are done with (R70). -/
def clearRequests (s : State) : State :=
  (s.eng.msg.map Prod.fst).foldl (fun a i => setMsg a i { msgAt a i with pop := false, push := false }) s

/-- Actions 8 and 9, and the end of the commit phase of cycle `n`. -/
def finishCommit (s : State) : State :=
  let n := getF s CYCLE_NUM
  let limit := atLimit s
  let rc := getF s RUN_COUNT
  let s0 := clearRequests ((foldedClusters s).foldl passLead s)
  let s1 := setF (if limit then s0 else setF s0 CYCLE_NUM (n + 1)) RUN_COUNT (rc - 1)
  let s2 := prepareCycle (clearAllMmps s1)
  let s3 := scrubWords s2 s2.eng.imemErr
  let s4 := (List.range 4).foldl (fun a d => traceCycle a d n) s3
  let s5 := answerPeeks (reportAll (setFlag s4 IN_COMMIT false) false false) false
  if s5.cyc.faulted then faultStop s5 else atEndOfCommit (stopDecision s5 (rc == 1) limit)

/-- Actions 1 to 7 of the commit phase, up to the ports that must wait; open EXCH flits close at its start (R245). -/
def commitActions (s : State) (errs : List ReadError) : State :=
  let n := getF s CYCLE_NUM
  let s1 := (s.ex.flits.map Prod.fst).foldl closeExch (setFs s [(IN_CYCLE, 0), (IN_COMMIT, 1)])
  let s2 := writeBackRows { s1 with eng := { s1.eng with cur := s1.eng.nxt } }
  let s3 := applyQueues s2 errs s2.eng.mmp
  let s4 := applyGroups (applyTiles s3 (n + 1) s3.cyc.held) (n + 1)
  let s5 := capturePhase s4 n
  let s6 := passOutbound (driveTargets s5) n
  pushPorts (deliverPorts s6 n (boundPorts s6)) n (boundPorts s6)

/-- The commit phase: after action 7, actions 8 and 9 follow when no port waits for room. -/
def commitPhase (s : State) (errs : List ReadError) : State :=
  let s7 := commitActions s errs
  if s7.cyc.waiting.isEmpty then finishCommit s7
  else { s7 with cyc := { s7.cyc with waitFrom := elapsedNs s7, stalled := false } }

/-- COMMIT_PHASE; `errs`: what the read halves of the write queues find. -/
def execCommitPhase (errs : List ReadError) (s : State) : Host.Outcome State Fault Refusal :=
  if deviceDone s ∧ stepClock s then .next (commitPhase s errs) else .next s

/-- HOLD_PORT_PUSH: a port that waits at action 7 pushes (R134, R353). -/
def execHoldPortPush (tile : BitVec 7) (port : BitVec 4) (s : State) : Host.Outcome State Fault Refusal :=
  let i := tile.toNat * 16 + port.toNat
  if stepClock s ∧ s.cyc.waiting.contains i ∧ roomIn s (getF s (P_QBASE i)) then
    let s1 := addF (doPush s i (getF s CYCLE_NUM)) (P_HOLD_NS i) (elapsedNs s - s.cyc.waitFrom)
    let s2 := { s1 with cyc := { s1.cyc with waiting := s1.cyc.waiting.erase i, stalled := false } }
    .next (if s2.cyc.waiting.isEmpty then finishCommit s2 else s2)
  else .next s

/-- COMMIT_STALL: action 7 makes no progress for the limit (R134). -/
def execCommitStall (s : State) : Host.Outcome State Fault Refusal :=
  if s.cyc.waiting.isEmpty ∨ s.cyc.stalled then .next s
  else .next (raiseEv { s with cyc := { s.cyc with stalled := true } } evCommitStall)

/-! ## RUN and STOP (R142, R146, R252, R334) -/

/-- The device begins to run. Instants that have passed are not counted. -/
def startRun (s : State) : State :=
  setRunState { s with cyc := { s.cyc with stopReq := false, overran := false, instant := instantsPassed s },
                       time := { s.time with haltLatch := false } } stRunning

/-- RUN through SEQ_CTRL: ignored unless STOPPED and below the cycle limit; refused by the halt inputs and by a trunk that is
not UP. -/
def seqRun (s : State) : State :=
  if runState s ≠ stStopped ∨ atLimit s then s
  else if haltBlocks s ∨ trunkMissing s then
    let s1 := if haltBlocks s then setFlag s HALT_RUN_BLOCKED true else s
    if trunkMissing s then setFlag s1 RUN_REFUSED true else s1
  else startRun s

/-- STOP: kept for the next stop decision while RUNNING. -/
def seqStop (s : State) : State :=
  if runState s = stRunning then { s with cyc := { s.cyc with stopReq := true } } else s

/-- SEQ_CTRL.RUN written with 1. -/
def execSeqCtrlRun (s : State) : Host.Outcome State Fault Refusal := byHost s seqRun

/-- SEQ_CTRL.STOP written with 1. -/
def execSeqCtrlStop (s : State) : Host.Outcome State Fault Refusal := byHost s seqStop

/-- The schedule of instants is written anew: those of it that have passed are not counted (R138, R139). -/
def reindex (s : State) : State := { s with cyc := { s.cyc with instant := instantsPassed s } }

/-- Select FREE or PACED; PACED takes its comparator (R138, R330). -/
def setSeqMode (s : State) (paced : Bool) : State :=
  let s1 := setFlag s SEQ_MODE paced
  if paced ∧ ¬ flag s SEQ_MODE then reindex (takeCmp s1 7) else s1

/-- SKEW_LIMIT: a write of 0 is ignored. -/
def setSkew (s : State) (v : Nat) : State := if v % 256 = 0 then s else setF s SKEW_LIMIT v

/-- NOPROGRESS_LIMIT: 1 to 1,023 are taken as 1,024. -/
def setNoProgress (s : State) (v : Nat) : State := setF s NOPROGRESS_LIMIT (if v = 0 then 0 else max v 1024)

/-- Status of the SEQ_STATUS register. -/
def seqStatusWord (s : State) : Nat :=
  let wait := runState s == stRunning && atBoundary s
  runState s + (flag s IN_CYCLE && !deviceDone s).toNat * 2 ^ 3 + getF s IN_COMMIT * 2 ^ 4 + (wait && skewBlocks s).toNat * 2 ^ 5
    + (wait && flag s SEQ_MODE).toNat * 2 ^ 6 + (wait && throttled s).toNat * 2 ^ 7 + getF s STOP_CAUSE * 2 ^ 8
    + getF s OVERRUN * 2 ^ 12

/-- RUN. -/
def cmdRun : Cmd where
  opcode := 0x0401
  ringsOnly := false
  length := lenIs 8
  scope := .plain
  right := onlyZero
  params := fun _ q _ => zeroPar q 4 4
  ready := fun s _ _ =>
    if runState s ≠ stStopped ∨ haltBlocks s ∨ atLimit s then rsBusy else if trunkMissing s then rsQuarantined else rsOk
  run := fun s q _ => okReply (startRun (setF s RUN_COUNT (par q 0 4))) []

def execRun (r : BitVec 5) (p : Packet) (s : State) : Host.Outcome State Fault Refusal := fromRing cmdRun r p s

/-- STOP. -/
def cmdStop : Cmd where
  opcode := 0x0402
  ringsOnly := false
  length := lenIs 0
  scope := .plain
  right := onlyZero
  params := noParams
  ready := always
  run := fun s _ _ =>
    if runState s = stRunning then .pending s (fun a _ => seqStop a) else okReply s (leBytes 8 (getF s CYCLE_NUM))

def execStop (r : BitVec 5) (p : Packet) (s : State) : Host.Outcome State Fault Refusal := fromRing cmdStop r p s

/-- RUN_STATUS. -/
def cmdRunStatus : Cmd where
  opcode := 0x0403
  ringsOnly := false
  length := lenIs 0
  scope := .plain
  right := anyPart
  params := noParams
  ready := always
  run := fun s _ _ => okReply s (leBytes 4 (seqStatusWord s) ++ leBytes 4 (getF s LAST_PERIOD) ++ leBytes 8 (getF s CYCLE_NUM)
    ++ leBytes 4 (getF s OVERRUN_COUNT) ++ leBytes 4 0)

def execRunStatus (r : BitVec 5) (p : Packet) (s : State) : Host.Outcome State Fault Refusal := fromRing cmdRunStatus r p s

/-- SEQ_SET. -/
def cmdSeqSet : Cmd where
  opcode := 0x0404
  ringsOnly := false
  length := lenIs 32
  scope := .plain
  right := onlyZero
  params := fun _ q _ => (decide (par q 0 1 ≤ 1) || par q 0 1 == 0xFF) && zeroPar q 2 2 && decide (par q 8 8 < 2 ^ 48)
    && decide (par q 16 4 < 1000000000) && zeroPar q 26 6
  ready := always
  run := fun s q _ =>
    let s1 := setSkew (setNoProgress s (par q 4 4)) (par q 1 1)
    let s2 := reindex (setFs s1 [(PACE_T0_SEC, par q 8 8), (PACE_T0_NS, par q 16 4), (PACE_PERIOD_NS, par q 20 4),
      (PACE_PERIOD_FRAC, par q 24 2)])
    okReply (if par q 0 1 = 0xFF then s2 else setSeqMode s2 (par q 0 1 == 1)) []

def execSeqSet (r : BitVec 5) (p : Packet) (s : State) : Host.Outcome State Fault Refusal := fromRing cmdSeqSet r p s

/-! ## DEADLOCK (R144, R145) -/

/-- The holds of the step a half stands before, when it is blocked there; `none`: it is at its end, or it can go on. -/
def blockedAt (s : State) (k : Nat) : Option (Nat × List Hold) :=
  let pc := pcOf k
  let half := halfB k
  if atEnd s pc half then none
  else
    let step := presentedStep s pc half
    if stepComplete s pc half ∧ standsBefore s pc half step ∧ stepTaken s pc half step ∧ ¬ (stepHolds s pc half step).contains .fetch
        ∧ ¬ (stepHolds s pc half step).isEmpty then
      some (step, stepHolds s pc half step)
    else none

/-- An MPG of a cluster has not been accepted by its port (R129). -/
def requestLeft (s : State) (pc : Nat) : Option MmpAccess :=
  (s.eng.mmp.flatMap (fun e => e.2.requests)).find? (fun a => a.pc == pc)

/-- The physical clusters of a die that are not done, in order. -/
def openClusters (s : State) (d : Nat) : List Nat :=
  (((s.eng.prog.map (fun e => pcOf e.1)).filter (fun pc => dieOfPc pc == d)).eraseDups).filter (fun pc =>
    !atEnd s pc false || !atEnd s pc true || (requestLeft s pc).isSome)

/-- The half that presents a step; `none`: both are at their end. -/
def presentedHalf (s : State) (pc : Nat) : Option Nat :=
  [false, true].findSome? (fun half =>
    if !atEnd s pc half && inTurn s pc half (presentedStep s pc half) then some (halfKey pc half) else none)

/-- No cluster of the die can issue a step. -/
def dieBlocked (s : State) (d : Nat) : Bool :=
  (openClusters s d).all (fun pc => match presentedHalf s pc with | some k => (blockedAt s k).isSome | none => true)

/-- The first member of a send's destinations without a credit: its place and its route table entry. -/
def dryMember (s : State) (t id : Nat) : Nat × Nat :=
  let l := (destsOf s t id).getD []
  match (List.range l.length).find? (fun i =>
      let e := l.getD i 0
      !mget s.eng.detached false (t * 4096 + e) && creditOf s t e == 0) with
  | some i => (i, l.getD i 0)
  | none => (0, 0)

/-- Word 0 of an entry. -/
def deadWord (s : State) (k kind step bp slot : Nat) : Nat :=
  2 ^ 63 + kind * 2 ^ 60 + pcOf k % 512 * 2 ^ 48 + mget s.eng.lc 0 k * 2 ^ 37 + step * 2 ^ 26 + bp * 2 ^ 20 + slot * 2 ^ 9

/-- The entry of a half that holds: words 0 and 1. -/
def deadEntry (s : State) (k : Nat) (step : Nat) (h : Hold) : Nat × Nat :=
  let pc := pcOf k
  let t := tileOfPc pc
  match h with
  | .recv bp slot =>
    let f := (mget s.eng.feeder none (recvKey pc slot)).getD ⟨0, 0, 0, 0⟩
    (deadWord s k 1 step bp slot, f.dev.toNat * 2 ^ 55 + f.die.toNat * 2 ^ 53 + f.tile.toNat * 2 ^ 48 + f.entry.toNat * 2 ^ 36)
  | .credit bp id =>
    let m := dryMember s t id
    let r := routeAt s t m.2
    (deadWord s k 2 step bp 0, rtDev r * 2 ^ 55 + rtDie r * 2 ^ 53 + rtTile r * 2 ^ 48 + id * 2 ^ 36
      + (if rtType (routeAt s t id) = 2 then m.1 * 2 ^ 33 else 0))
  | .mmp bp port seq => (deadWord s k 3 step bp 0, port * 2 ^ 28 + seq * 2 ^ 22)
  | .fetch => (deadWord s k 5 step 0 0, 0)

/-- The entry of a physical cluster that is not done: KIND 1 to 3 for the hold of the step it presents; KIND 5 for one at its end that
waits for a port to accept an MPG, where the manual does not say which step such a cluster presents next: a free value (log entry 112). -/
def clusterEntry (s : State) (pc : Nat) : Nat × Nat :=
  match presentedHalf s pc with
  | some k =>
    match blockedAt s k with
    | some (step, h :: _) => deadEntry s k step h
    | _ => (deadWord s k 5 (presentedStep s pc (halfB k) % 2048) 0 0, 0)
  | none =>
    let half := match requestLeft s pc with | some a => a.half | none => false
    (deadWord s (halfKey pc half) 5 ((Config.freeValue 11 s.free).toNat) 0 0, 0)

/-- The report of a die: physical cluster and words 0 and 1 of each cluster that is not done. -/
def deadReport (s : State) (d : Nat) : List (Nat × Nat × Nat) := (openClusters s d).map (fun pc => (pc, clusterEntry s pc))

/-- Write the report into the die's window. -/
def writeReport (s : State) (d : Nat) (l : List (Nat × Nat × Nat)) : State :=
  let m0 := mdrop s.cyc.report (fun k => k / 1024 == d)
  let ws := l.flatMap (fun e => [BitVec.ofNat 64 e.2.1, BitVec.ofNat 64 e.2.2])
  { s with cyc := { s.cyc with report := msetMany m0 0 (d * 1024) ws } }

/-- The entry that DEADLOCK names: the first of KIND 1 to 3, else the first; `none`: the die waits for reads alone (R145). -/
def deadPick (l : List (Nat × Nat × Nat)) : Option (Nat × Nat × Nat) :=
  match l.find? (fun e => decide (1 ≤ bitsOf e.2.1 60 3) && decide (bitsOf e.2.1 60 3 ≤ 3)) with
  | some e => some e
  | none => l.head?

/-- The location of an entry's cluster. -/
def deadLoc (s : State) (e : Nat × Nat × Nat) : Nat :=
  locWord (getF s DEV_ID) (e.1 / 512) (e.1 / 16 % 32) (e.1 % 16) (bitsOf e.2.1 20 6) (bitsOf e.2.1 26 11) (bitsOf e.2.1 37 11)

/-- A blocked cluster holds until step clock `c` of the cycle. -/
def holdUntil (s : State) (pc c : Nat) : State :=
  match (presentedHalf s pc).bind (fun k => (blockedAt s k).map (fun b => (halfB k, b))) with
  | some (half, step, hs) => countHold s pc half step hs (c - issueClock s pc half step)
  | none => s

/-- The die watchdog reaches its limit: every blocked cluster of the die has held until then (R144). -/
def reachLimit (s : State) (d : Nat) : State :=
  let c := mget s.cyc.dieNow 0 d + (getF s NOPROGRESS_LIMIT - getF s (NOPROGRESS_COUNT d))
  setF ((openClusters s d).foldl (fun a pc => holdUntil a pc c) s) (NOPROGRESS_COUNT d) (getF s NOPROGRESS_LIMIT)

/-- DEADLOCK: the die watchdog of a die in a cycle, not done, in which nothing can issue, has reached its limit. -/
def execDeadlock (die : BitVec 2) (s : State) : Host.Outcome State Fault Refusal :=
  let d := die.toNat
  if flag s IN_CYCLE ∧ ¬ mget s.cyc.dieDone false d ∧ ¬ dieReady s d ∧ getF s NOPROGRESS_LIMIT ≠ 0 ∧ dieBlocked s d then
    let l := deadReport s d
    let s1 := writeReport (drawFree (reachLimit s d)) d l
    match deadPick l with
    | some e => .next (raiseFaultAt s1 e.1 fcDeadlock (deadLoc s e))
    | none => .next (raiseFault s1 fcDeadlock (locWord (getF s DEV_ID) d 0 0 0 0 0))
  else .next s

end Sys2Proof.Machine
end

