-- ==== Sys2Proof/Machine/Clock.lean ====
section
/-!
DEFINITION. The step clock (R36, R505, R519): the frequency asked for, the AVS voltage order, and the thermal throttle.
-/
namespace Sys2Proof.Machine
open Sys2Proof Reg

/-! ## The voltage order (R36, R505) -/

/-- Set the power state's fields beside the registers. -/
def setPw (s : State) (f : Power → Power) : State := { s with pw := f s.pw }

/-- The clock's upper limit by grade (R521). -/
def maxMhz (s : State) : Nat := if getF s DEV_GRADE = 2 then 1000 else 1200

/-- A write of some regulator awaits acknowledgement. -/
def avsBusy (s : State) : Bool := (List.range 4).any (fun d => flag s (AVS_BUSY d))

/-- AVS writes for the set points of a step clock go out on the four rails. -/
def startAvs (s : State) (mhz : Nat) : State :=
  let s1 := (List.range 4).foldl (fun a d => setF a (AVS_BUSY d) 1) s
  setPw s1 (fun w => { w with avsGoal := mhz, avsFailed := [] })

/-- With every write acknowledged: a raise moves the frequency at the next boundary, or first raises the voltage; after a lowering
the voltage follows. -/
def settleAvs (s : State) : State :=
  if avsBusy s then s
  else
    match s.pw.raise with
    | some f =>
      if ¬ s.pw.avsFailed.isEmpty then s
      else if s.pw.avsGoal = f then beginRelock { (setPw s (fun w => { w with raise := none })) with cyc := { s.cyc with clockReq := some f } }
      else startAvs s f
    | none => if s.cyc.clockReq.isSome ∨ s.pw.avsGoal = getF s STEP_MHZ_NOW then s else startAvs s (getF s STEP_MHZ_NOW)

/-- The step clock to use: the lesser of STEP_MHZ_REQ and LIMIT (R519). -/
def targetMhz (s : State) : Nat := min (getF s STEP_MHZ_REQ) (getF s LIMIT_MHZ)

/-- Move toward the target: a lower frequency at a boundary, a higher one after its voltage. A relock under way ends first. -/
def requestClock (s : State) : State :=
  let f := targetMhz s
  let now := getF s STEP_MHZ_NOW
  let put := fun (a : State) (c : Option Nat) (r : Option Nat) =>
    { (setPw a (fun w => { w with raise := r })) with cyc := { a.cyc with clockReq := c } }
  if s.cyc.relocking then s
  else if f < now then beginRelock (put s (some f) none)
  else if f = now then put s none none
  else if avsBusy s then put s none (some f)
  else if s.pw.avsGoal = f then settleAvs (put s none (some f))
  else startAvs (put s none (some f)) f

/-- PLL_RELOCK: the PLL has relocked between a commit and the next tick (R36). -/
def execPllRelock (s : State) : Host.Outcome State Fault Refusal :=
  match s.cyc.clockReq with
  | some f =>
    if s.cyc.relocking then
      .next (settleAvs (requestClock
        { (setF s STEP_MHZ_NOW f) with cyc := { s.cyc with clockReq := none, relocking := false } }))
    else .next s
  | none => .next s

/-- AVS_WRITE_ACK: the regulator of a die acknowledges; a write that failed before has succeeded now (R505). -/
def execAvsWriteAck (die : BitVec 2) (s : State) : Host.Outcome State Fault Refusal :=
  let d := die.toNat
  if flag s (AVS_BUSY d) ∨ mget s.pw.avsFailed false d then
    let s1 := setFs s [(AVS_BUSY d, 0), (AVS_SET_MV d, (Config.avsMv d s.pw.avsGoal).toNat)]
    .next (settleAvs (setPw s1 (fun w => { w with avsFailed := mset w.avsFailed false d false })))
  else .next s

/-- AVS_TIMEOUT: no acknowledgement within 5 ms; the frequency stays, AVS_ERR is set and POWER_STATE raised (R505). -/
def execAvsTimeout (die : BitVec 2) (s : State) : Host.Outcome State Fault Refusal :=
  let d := die.toNat
  if flag s (AVS_BUSY d) then
    let s1 := setFs s [(AVS_BUSY d, 0), (AVS_ERR, 1)]
    .next (raiseEv (setPw s1 (fun w => { w with avsFailed := mset w.avsFailed false d true })) evPowerState)
  else .next s

/-- STEP_MHZ_REQ is written, within the grade's limits. -/
def setStepReq (s : State) (v : Nat) : State := requestClock (setF s STEP_MHZ_REQ (max 250 (min v (maxMhz s))))

/-! ## Throttling (R519) -/

/-- LIMIT falls to a value, not below 250 MHz; each fall of LIMIT is counted. -/
def lowerLimit (s : State) (v : Nat) : State :=
  let x := max 250 v
  let s1 := if x < getF s LIMIT_MHZ then addF s THROTTLE_COUNT 1 else s
  requestClock (setF s1 LIMIT_MHZ x)

/-- The signed value of a sensor, in tenths of a degree. -/
def degrees (v : BitVec 16) : Int := signedOf 16 v.toNat

/-- The hottest of a list of sensors. -/
def hottest (l : List (BitVec 16)) : Int := l.foldl (fun m v => max m (degrees v)) (-32768)

/-- The throttle takes a sample whose hottest sensor reads `t`. -/
def throttleSample (s : State) (t : Int) : State :=
  let lim : Int := getF s T_THROT * 10
  let s1 := setPw (if 1050 < t then setFlag s HOT true else s) (fun w => { w with cool := decide (t < lim - 30) })
  if t < lim then s1
  else
    let s2 := setPw s1 (fun w => { w with hot := true })
    if flag s2 THROTTLING then s2
    else lowerLimit (raiseEv (setFlag s2 THROTTLING true) evThermal) (getF s2 STEP_MHZ_NOW - 50)

/-- THROTTLE_STEP_DOWN: a 1 ms interval of throttling ends; LIMIT falls if one of its samples was hot. -/
def execThrottleStepDown (s : State) : Host.Outcome State Fault Refusal :=
  if flag s THROTTLING ∧ s.pw.hot then
    .next (lowerLimit (setPw s (fun w => { w with hot := false })) (getF s LIMIT_MHZ - 50))
  else .next s

/-- THROTTLE_STEP_UP: every sample has stayed below T_THROT - 3 °C for 10 ms; LIMIT rises, and throttling ends when it reaches
STEP_MHZ_REQ: LIMIT then no longer limits. -/
def execThrottleStepUp (s : State) : Host.Outcome State Fault Refusal :=
  if flag s THROTTLING ∧ s.pw.cool then
    let x := getF s LIMIT_MHZ + 50
    if getF s STEP_MHZ_REQ ≤ x then
      .next (requestClock (raiseEv (setFs s [(LIMIT_MHZ, 1200), (THROTTLING, 0)]) evThermal))
    else .next (requestClock (setF s LIMIT_MHZ x))
  else .next s

end Sys2Proof.Machine
end

