-- ==== Sys2Proof/Machine/Global.lean ====
section
/-!
DEFINITION. The system commands (R260, R261, R268, R271, R275, R277) and the link commands (R300, R307).
-/
namespace Sys2Proof.Machine
open Sys2Proof Reg

/-! ## The parameter block of a global operation (R277) -/

def goByTime (q : Request) : Bool := par q 0 1 == 1
def goFlags (q : Request) : Nat := par q 1 1
def goArg (q : Request) : Nat := par q 2 2
def goWhen (q : Request) : Nat := par q 8 8
def goNs (q : Request) : Nat := par q 16 4
def goData (q : Request) : Nat := par q 24 8

/-- The bits of FLAGS that an operation of a kind uses (R257). -/
def flagsOfKind (kind : Nat) : Nat := if kind = 2 then 1 else if kind = 3 then 3 else 0

/-- The range of ARG: a snapshot slot or an inbound queue; other kinds do not use it. -/
def argOk (kind arg : Nat) : Bool := if kind = 2 then decide (arg < 4) else if kind = 4 then decide (arg < 16384) else true

/-- ⌈DIAMETER × 260 ns / P⌉ for a period of `clocks` step clocks at `mhz`; for a period of 0 the manual states none. -/
def travelCycles (s : State) (clocks mhz : Nat) : Nat :=
  let d := getF s DIAMETER
  if d = 0 then 0 else if clocks = 0 then (Config.freeValue 48 s.free).toNat else ceilDiv (d * 260 * mhz) (clocks * 1000)

/-- MIN_LEAD: the shorter of the last two periods gives the larger term (R261). -/
def minLead (s : State) : Nat :=
  getF s DIAMETER * getF s SKEW_LIMIT
    + max (travelCycles s (getF s LAST_PERIOD) s.sys.lastMhz) (travelCycles s s.sys.prevPeriod s.sys.prevMhz) + 2

/-- A cycle-scheduled operation names a cycle that is far enough ahead (R261). -/
def cycleAhead (s : State) (c : Nat) : Bool :=
  if runState s = stRunning then decide (getF s CYCLE_NUM + minLead s ≤ c) else decide (getF s CYCLE_NUM ≤ c)

/-- The parameters of an operation are in range. -/
def goParams (kind : Nat) : State → Request → Nat → Bool := fun s q _ =>
  decide (par q 0 1 ≤ 1) && (goFlags q &&& flagsOfKind kind == goFlags q) && argOk kind (goArg q) && zeroPar q 4 4
    && zeroPar q 20 4 && decide (goWhen q < 2 ^ 48) && (kind == 4 || goData q == 0)
    && (if goByTime q then decide (goNs q < 1000000000) else goNs q == 0 && cycleAhead s (goWhen q))

/-- QUARANTINED while a trunk that DEV_ROUTE names is not UP; BUSY while every GOP slot is in use (R260). -/
def goReady : State → Request → Nat → Nat := fun s _ _ =>
  if trunkMissing s then rsQuarantined else if (takeSlot s.sys.ops).1.isNone then rsBusy else rsOk

/-- The operation that a command issues. -/
def gopOf (kind : Nat) (q : Request) (call : Nat) : Gop :=
  { slot := none, state := 1, kind := kind, byTime := goByTime q, aborted := false, origin := 0, seq := 0, round := 0,
    cycle := if goByTime q then 0 else goWhen q, sec := if goByTime q then goWhen q else 0, ns := goNs q, flags := goFlags q,
    arg := goArg q, data := goData q, vote := false, marked := false, agreed := false, fired := false, call := call }

/-- A command that issues an operation of a kind. -/
def cmdGop (opcode kind : Nat) : Cmd where
  opcode := opcode
  ringsOnly := false
  length := lenIs 32
  scope := .plain
  right := onlyZero
  params := goParams kind
  ready := goReady
  run := fun s q _ => .pending (drawFree s) (fun a id => issueOp a (gopOf kind q id) (goWhen q))

def cmdStopAt : Cmd := cmdGop 0x0420 1
def cmdSnapshotAt : Cmd := cmdGop 0x0421 2
def cmdResetAt : Cmd := cmdGop 0x0422 3
def cmdBroadcast : Cmd := cmdGop 0x0423 4
def cmdBarrier : Cmd := cmdGop 0x0424 5

def execStopAt (r : BitVec 5) (p : Packet) (s : State) : Host.Outcome State Fault Refusal := fromRing cmdStopAt r p s
def execSnapshotAt (r : BitVec 5) (p : Packet) (s : State) : Host.Outcome State Fault Refusal := fromRing cmdSnapshotAt r p s
def execResetAt (r : BitVec 5) (p : Packet) (s : State) : Host.Outcome State Fault Refusal := fromRing cmdResetAt r p s
def execBroadcast (r : BitVec 5) (p : Packet) (s : State) : Host.Outcome State Fault Refusal := fromRing cmdBroadcast r p s
def execBarrier (r : BitVec 5) (p : Packet) (s : State) : Host.Outcome State Fault Refusal := fromRing cmdBarrier r p s

/-- SET_EPOCH (R268): every trunk is classified anew. -/
def cmdSetEpoch : Cmd where
  opcode := 0x0428
  ringsOnly := false
  length := lenIs 4
  scope := .plain
  right := onlyZero
  params := fun _ q _ => par q 0 4 != 0
  ready := fun s _ _ => busyUnless (runState s != stRunning)
  run := fun s q _ => okReply (identityChanged (setF s SYS_EPOCH (par q 0 4))) []

def execSetEpoch (r : BitVec 5) (p : Packet) (s : State) : Host.Outcome State Fault Refusal := fromRing cmdSetEpoch r p s

/-! ## Snapshot slots (R271, R275) -/

/-- A partition may name its own slots, partition 0 those of all. -/
def ownPart (off : Nat) : State → Request → Nat → Bool := fun _ q r => r == 0 || decide (16 ≤ par q off 1) || par q off 1 == r

/-- The areas of SNAP_AREA. -/
def areasOf (q : Request) : List (Nat × Nat) := (List.range 4).map (fun st => (par q (8 + 16 * st) 8, par q (16 + 16 * st) 8))

/-- SNAP_AREA. -/
def cmdSnapArea : Cmd where
  opcode := 0x0510
  ringsOnly := false
  length := lenIs 72
  scope := .plain
  right := ownPart 0
  params := fun s q _ => decide (par q 0 1 < 16) && decide (par q 1 1 < 4) && zeroPar q 2 6
    && (List.range 4).all (fun st => rangeInRegion s (par q 0 1) st (par q (8 + 16 * st) 8) (par q (16 + 16 * st) 8))
  ready := always
  run := fun s q _ =>
    okReply (setSnap s (par q 0 1) (par q 1 1) { snapAt s (par q 0 1) (par q 1 1) with areas := areasOf q }) []

def execSnapArea (r : BitVec 5) (p : Packet) (s : State) : Host.Outcome State Fault Refusal := fromRing cmdSnapArea r p s

/-- A restore of a slot is accepted (R275). -/
def restoreOk (s : State) (slot : Nat) : Bool :=
  (runState s == stStopped || runState s == stFaulted || runState s == stFrozen)
    && (imageParts s).all (fun p => (snapAt s p slot).valid)
    && (match mget s.sys.contents none slot with
        | none => false
        | some c => c.deviceImage == s.sys.deviceImage
            && (imageParts s).all (fun p => c.images.any (fun e => e.1 == p && e.2.1 == imageId s p)))

/-- RESTORE. -/
def cmdRestore : Cmd where
  opcode := 0x0511
  ringsOnly := false
  length := lenIs 8
  scope := .plain
  right := onlyZero
  params := fun s q _ => decide (par q 0 1 < 4) && zeroPar q 1 7 && restoreOk s (par q 0 1)
  ready := fun s _ _ => busyUnless s.sys.restoring.isNone
  run := fun s q _ => .pending s (fun a id => { a with sys := { a.sys with restoring := some (par q 0 1, id) } })

def execRestore (r : BitVec 5) (p : Packet) (s : State) : Host.Outcome State Fault Refusal := fromRing cmdRestore r p s

/-- SNAP_INFO. -/
def cmdSnapInfo : Cmd where
  opcode := 0x0512
  ringsOnly := false
  length := lenIs 8
  scope := .plain
  right := ownPart 0
  params := fun _ q _ => decide (par q 0 1 < 16) && decide (par q 1 1 < 4) && zeroPar q 2 6
  ready := always
  run := fun s q _ =>
    let p := par q 0 1
    let x := snapAt s p (par q 1 1)
    okReply s (leBytes 8 x.valid.toNat ++ leBytes 8 x.cycle.toNat ++ leBytes 4 x.epoch.toNat ++ leBytes 4 0
      ++ (List.range 4).flatMap (fun st => leBytes 8 (Config.snapNeed (imageId s p) st).toNat))

def execSnapInfo (r : BitVec 5) (p : Packet) (s : State) : Host.Outcome State Fault Refusal := fromRing cmdSnapInfo r p s

/-! ## Link commands (R307) -/

/-- A trunk or lane number in byte 0. -/
def linkNumber (q : Request) : Bool := decide (par q 0 1 < 96)

/-- The lanes of a trunk train anew, those in DISABLED and TEST apart. -/
def retrainLanes (s : State) : List Nat → State
  | [] => s
  | n :: r =>
    retrainLanes (if getF s (LANE_STATE n) = lsDisabled ∨ getF s (LANE_STATE n) = lsTest then s else enterDetect s n) r

/-- LINK_RETRAIN: an ACTIVE trunk passes through DOWN. -/
def cmdLinkRetrain : Cmd where
  opcode := 0x0801
  ringsOnly := false
  length := lenIs 8
  scope := .plain
  right := onlyZero
  params := fun _ q _ => linkNumber q && zeroPar q 1 7
  ready := fun s q _ => busyUnless (!(runState s == stRunning && getF s (TS_STATE (par q 0 1)) == tsUp))
  run := fun s q _ =>
    let t := par q 0 1
    let s1 := if getF s (LSTATE t) = tkActive ∨ getF s (LSTATE t) = tkRecovering then loseTrunk s t else s
    okReply (retrainLanes s1 (trunkLanes s1 t)) []

def execLinkRetrain (r : BitVec 5) (p : Packet) (s : State) : Host.Outcome State Fault Refusal := fromRing cmdLinkRetrain r p s

/-- LINK_SLIP. -/
def cmdLinkSlip : Cmd where
  opcode := 0x0802
  ringsOnly := false
  length := lenIs 8
  scope := .plain
  right := onlyZero
  params := fun s q _ => linkNumber q && decide (1 ≤ par q 1 1) && decide (par q 1 1 ≤ 127) && zeroPar q 2 6
    && flag s (ALIGN_MANUAL (par q 0 1)) && getF s (LANE_STATE (par q 0 1)) == lsAlign
  ready := always
  run := fun s q _ =>
    let s1 := slipLane s (par q 0 1) (par q 1 1)
    okReply s1 (leBytes 4 (getF s1 (ALIGN_GOOD (par q 0 1))))

def execLinkSlip (r : BitVec 5) (p : Packet) (s : State) : Host.Outcome State Fault Refusal := fromRing cmdLinkSlip r p s

/-- LINK_PRBS. -/
def cmdLinkPrbs : Cmd where
  opcode := 0x0803
  ringsOnly := false
  length := lenIs 8
  scope := .plain
  right := onlyZero
  params := fun _ q _ => linkNumber q && decide (par q 1 1 < 8) && decide (par q 2 1 < 8) && decide (par q 3 1 < 2) && zeroPar q 4 4
  ready := fun s q _ => busyUnless (!prbsRefused s (par q 0 1))
  run := fun s q _ =>
    let s1 := setPrbs s (par q 0 1) (par q 1 1) (par q 2 1)
    okReply (if par q 3 1 = 1 then clearPrbs s1 (par q 0 1) else s1) []

def execLinkPrbs (r : BitVec 5) (p : Packet) (s : State) : Host.Outcome State Fault Refusal := fromRing cmdLinkPrbs r p s

/-- LINK_PRBS_READ: both counters together; `bits` and `errs` have passed in TEST since the last count. -/
def cmdLinkPrbsRead (bits errs : Nat) : Cmd where
  opcode := 0x0804
  ringsOnly := false
  length := lenIs 8
  scope := .plain
  right := onlyZero
  params := fun _ q _ => linkNumber q && zeroPar q 1 7
  ready := always
  run := fun s q _ =>
    let s1 := countPrbs s (par q 0 1) bits errs
    okReply s1 (leBytes 8 (getF s1 (PRBS_BITS (par q 0 1))) ++ leBytes 8 (getF s1 (PRBS_ERR (par q 0 1))))

def execLinkPrbsRead (r : BitVec 5) (p : Packet) (bits errs : BitVec 48) (s : State) : Host.Outcome State Fault Refusal :=
  fromRing (cmdLinkPrbsRead bits.toNat errs.toNat) r p s

/-- LINK_REJOIN: the trunk re-forms with every READY lane. -/
def cmdLinkRejoin : Cmd where
  opcode := 0x0805
  ringsOnly := false
  length := lenIs 8
  scope := .plain
  right := onlyZero
  params := fun _ q _ => linkNumber q && zeroPar q 1 7
  ready := always
  run := fun s q _ => okReply (reform s (par q 0 1)) []

def execLinkRejoin (r : BitVec 5) (p : Packet) (s : State) : Host.Outcome State Fault Refusal := fromRing cmdLinkRejoin r p s

end Sys2Proof.Machine
end

