-- ==== Sys2Proof/Machine/Security.lean ====
section
/-!
DEFINITION. Security (R418 to R449): partition changes, rights, key slots, re-keying, export and import of snapshots, and the
alarm.
-/
namespace Sys2Proof.Machine
open Sys2Proof Reg

/-! ## Rights in change (R419, R439, R440) -/

/-- A SET_RIGHTS has not sent its final reply. -/
def rightsBusy (s : State) : Bool := flag s RIGHTS_PENDING

/-- The rights epoch advances; the requests of the old epoch are those outstanding. `call` is SET_RIGHTS's, 0 for a
partition change. -/
def newEpoch (s : State) (call : Nat) : State :=
  let s1 := setF s RIGHTS_EPOCH (getF s RIGHTS_EPOCH + 1)
  { s1 with sec := { s1.sec with rights := if call = 0 ∧ (openRequests s).isEmpty then none else some (call, openRequests s) } }

/-- Neither partition holds an image, and no SET_RIGHTS is under way (R419, R440). -/
def partFree (s : State) (p q : Nat) : Bool := !hasImage s p && !hasImage s q && !rightsBusy s

/-- PART_TILE_SET. -/
def cmdPartTileSet : Cmd where
  opcode := 0x0B01
  ringsOnly := false
  length := lenIs 8
  scope := .plain
  right := onlyZero
  params := fun _ q _ => decide (par q 0 1 < 128) && decide (par q 1 1 < 16) && zeroPar q 2 6
  ready := fun s q _ => busyUnless (partFree s (getF s (TILE_PARTITION (par q 0 1))) (par q 1 1))
  run := fun s q _ => 
    okReply (newEpoch (fixRoutes s (setF s (TILE_PARTITION (par q 0 1)) (par q 1 1)) (tileSources (par q 0 1))) 0) []

def execPartTileSet (r : BitVec 5) (p : Packet) (s : State) : Host.Outcome State Fault Refusal := fromRing cmdPartTileSet r p s

/-- A region lies in the usable space and overlaps no other partition's on the stack (R419). -/
def regionOk (s : State) (p st base lines : Nat) : Bool :=
  decide (base + lines ≤ usableLines) && decide (base < 2 ^ 30) &&
    (List.range 16).all (fun o => o == p || lines == 0 || getF s (HBM_LINES o st) == 0
      || decide (base + lines ≤ getF s (HBM_BASE o st)) || decide (getF s (HBM_BASE o st) + getF s (HBM_LINES o st) ≤ base))

/-- PART_REGION_SET. -/
def cmdPartRegionSet : Cmd where
  opcode := 0x0B02
  ringsOnly := false
  length := lenIs 24
  scope := .plain
  right := onlyZero
  params := fun s q _ => decide (par q 0 1 < 16) && decide (par q 1 1 < 4) && zeroPar q 2 6
    && regionOk s (par q 0 1) (par q 1 1) (par q 8 8) (par q 16 8)
  ready := fun s q _ => busyUnless (partFree s (par q 0 1) (par q 0 1))
  run := fun s q _ =>
    let p := par q 0 1
    let st := par q 1 1
    okReply (newEpoch (setFs s [(HBM_BASE p st, par q 8 8), (HBM_LINES p st, par q 16 8)]) 0) []

def execPartRegionSet (r : BitVec 5) (p : Packet) (s : State) : Host.Outcome State Fault Refusal := fromRing cmdPartRegionSet r p s

/-- The row of SET_RIGHTS is written. -/
def writeRights (s : State) (q : Request) : State :=
  setFs s ((List.range 16).map (fun r => (RIGHTS r (par q 0 1), par q (8 + r) 1)))

/-- SET_RIGHTS. -/
def cmdSetRights : Cmd where
  opcode := 0x0B03
  ringsOnly := false
  length := lenIs 24
  scope := .plain
  right := onlyZero
  params := fun _ q _ => decide (par q 0 1 < 16) && zeroPar q 1 7 && (List.range 16).all (fun r => decide (par q (8 + r) 1 < 64))
  ready := fun s _ _ => busyUnless (!rightsBusy s)
  run := fun s q _ => .pending s (fun a id => newEpoch (setFlag (writeRights a q) RIGHTS_PENDING true) id)

def execSetRights (r : BitVec 5) (p : Packet) (s : State) : Host.Outcome State Fault Refusal := fromRing cmdSetRights r p s

/-- RIGHTS_DRAIN: requests of the old epoch that are outstanding still are aborted, and SET_RIGHTS replies (R440). -/
def execRightsDrain (s : State) : Host.Outcome State Fault Refusal :=
  match s.sec.rights with
  | none => .next s
  | some (call, old) =>
    let l := old.filter (fun i => (openRequests s).contains i)
    let n := l.length + (old.filter (fun i => i == 0)).length
    let s1 := finalReplies (withdrawCalls { s with sec := { s.sec with rights := none } } l) rsRightsChanged [] l
    .next (finalReply (setFlag s1 RIGHTS_PENDING false) call rsOk (leBytes 4 n ++ leBytes 4 0))

/-! ## Key slots (R428 to R430) -/

/-- A loaded image uses a key slot. -/
def slotUsed (s : State) (k : Nat) : Bool := (imageParts s).any (fun p => getF s (SEAL_KEY_SLOT p) == k)

/-- Put a key into a slot. -/
def putKey (s : State) (k part image : Nat) (wrapped : Bool) (kr : BitVec 256) : State :=
  setFs { s with sec := { s.sec with root := mset s.sec.root 0 k kr } }
    [(KS_VALID k, 1), (KS_WRAPPED k, wrapped.toNat), (KS_PARTITION k, part), (KS_IMAGE_LO k, image % 2 ^ 64),
     (KS_IMAGE_HI k, image / 2 ^ 64)]

/-- Empty a slot. -/
def dropKey (s : State) (k : Nat) : State :=
  setFs { s with sec := { s.sec with root := mset s.sec.root 0 k 0 } }
    [(KS_VALID k, 0), (KS_WRAPPED k, 0), (KS_PARTITION k, 0), (KS_IMAGE_LO k, 0), (KS_IMAGE_HI k, 0)]

/-- The private device identity key, a number from 1 to the order of P-384 minus 1, and DIK_PUB (R429). -/
def identityKey : Nat := Config.identityKey.toNat % (Crypto.p384n - 1) + 1
def dikPub : List Byte := Crypto.pointBytes (Crypto.mulPoint identityKey (some Crypto.p384g))

/-- The label "SK96-WKEY", padded to 10 bytes. -/
def labelWrap : List Byte := [0x53, 0x4B, 0x39, 0x36, 0x2D, 0x57, 0x4B, 0x45, 0x59, 0]

/-- The image root key in a wrapped blob of 160 bytes; `none`: the blob does not open (R429). -/
def unwrapKey (blob : List Byte) : Option (BitVec 256) :=
  let image := (blob.drop 0x60).take 16
  let wrapped := (blob.drop 0x70).take 32
  match Crypto.ecdh identityKey (blob.take 96) with
  | none => none
  | some z =>
    let kek := (Crypto.hmac z (kdfString 1 labelWrap image 0 0 0x100)).take 32
    let iv := List.replicate 12 0
    if Crypto.gcmTag kek iv image wrapped = (blob.drop 0x90).take 16 then some (BitVec.ofNat 256 (leNat (Crypto.gcmCrypt kek iv wrapped))) else none

/-- KEY_INSTALL. -/
def cmdKeyInstall : Cmd where
  opcode := 0x0B04
  ringsOnly := false
  length := fun _ q => q.length == if par q 1 1 = 1 then 168 else 40
  scope := .plain
  right := onlyZero
  params := fun _ q _ => decide (par q 0 1 < 32) && decide (par q 1 1 < 2) && decide (par q 2 1 < 16) && zeroPar q 3 5
  ready := fun s q _ => busyUnless (!slotUsed s (par q 0 1))
  run := fun s q _ =>
    let k := par q 0 1
    if par q 1 1 = 0 then okReply (putKey s k (par q 2 1) 0 false (BitVec.ofNat 256 (par q 8 32))) []
    else
      match unwrapKey (q.params.drop 8) with
      | some kr => okReply (putKey s k (par q 2 1) (par q (8 + 0x60) 16) true kr) []
      | none => .final (secAlarm s alUnwrap 2 (par q 2 1) 0 0) rsAuthFail []

def execKeyInstall (r : BitVec 5) (p : Packet) (s : State) : Host.Outcome State Fault Refusal := fromRing cmdKeyInstall r p s

/-- KEY_ERASE. -/
def cmdKeyErase : Cmd where
  opcode := 0x0B05
  ringsOnly := false
  length := lenIs 8
  scope := .plain
  right := onlyZero
  params := fun _ q _ => decide (par q 0 1 < 32) && zeroPar q 1 7
  ready := fun s q _ => busyUnless (!slotUsed s (par q 0 1))
  run := fun s q _ => okReply (dropKey s (par q 0 1)) []

def execKeyErase (r : BitVec 5) (p : Packet) (s : State) : Host.Outcome State Fault Refusal := fromRing cmdKeyErase r p s

/-- SEAL_KEY_SET. -/
def cmdSealKeySet : Cmd where
  opcode := 0x0B06
  ringsOnly := false
  length := lenIs 104
  scope := .plain
  right := onlyZero
  params := fun _ q _ => decide (par q 0 1 < 16) && zeroPar q 1 7
  ready := fun s q _ => busyUnless (!hasImage s (par q 0 1))
  run := fun s q _ => okReply { s with sec := { s.sec with signKey := mset s.sec.signKey [] (par q 0 1) (q.params.drop 8) } } []

def execSealKeySet (r : BitVec 5) (p : Packet) (s : State) : Host.Outcome State Fault Refusal := fromRing cmdSealKeySet r p s

/-- DIK_GET. -/
def cmdDikGet : Cmd where
  opcode := 0x0B0A
  ringsOnly := false
  length := lenIs 0
  scope := .plain
  right := anyPart
  params := noParams
  ready := always
  run := fun s _ _ => okReply s dikPub

def execDikGet (r : BitVec 5) (p : Packet) (s : State) : Host.Outcome State Fault Refusal := fromRing cmdDikGet r p s

/-! ## Re-keying (R442 to R444) -/

def rkRunning : Nat := 1
def rkDone : Nat := 2
def rkStopped : Nat := 3

/-- Partition `p` gets new working keys on a stack; the old ones are kept when `keep` is set. -/
def drawKeys (s : State) (p st : Nat) (keep : Bool) : State :=
  let k := p * 4 + st
  let old := if keep then mget s.sec.gen 0 k else 0
  { s with sec := { s.sec with gen := mset s.sec.gen 0 k s.sec.nextGen, oldGen := mset s.sec.oldGen 0 k old,
                               nextGen := s.sec.nextGen + 1 } }

/-- Start a re-key of partition `p`, or resume it at B. -/
def startRekey (s : State) (p st bw call : Nat) : State :=
  let s1 :=
    if getF s (RK_STATE st) = rkStopped then s
    else setFs (drawKeys s p st true) [(RK_PARTITION st, p), (RK_BOUNDARY st, getF s (HBM_BASE p st)),
      (RK_END st, getF s (HBM_BASE p st) + getF s (HBM_LINES p st))]
  let s2 := setFs s1 [(RK_STATE st, rkRunning), (RK_BW_PCT st, max 1 (min bw 100))]
  { s2 with sec := { s2.sec with rekeyCall := mset s2.sec.rekeyCall 0 st call } }

/-- The boundary has passed the region's end: the old keys are erased, and REKEY replies. -/
def finishRekey (s : State) (st : Nat) : State :=
  let k := getF s (RK_PARTITION st) * 4 + st
  let call := mget s.sec.rekeyCall 0 st
  let s1 := { s with sec := { s.sec with oldGen := mset s.sec.oldGen 0 k 0, rekeyCall := mset s.sec.rekeyCall 0 st 0 } }
  finalReply (setF s1 (RK_STATE st) rkDone) call rsOk []

/-- Finish when nothing is left. -/
def checkRekey (s : State) (st : Nat) : State :=
  if getF s (RK_STATE st) = rkRunning ∧ getF s (RK_END st) ≤ getF s (RK_BOUNDARY st) then finishRekey s st else s

/-- REKEY; a stopped re-key of another partition keeps the stack busy. -/
def cmdRekey : Cmd where
  opcode := 0x0B07
  ringsOnly := false
  length := lenIs 8
  scope := .plain
  right := ownPart 0
  params := fun _ q _ => decide (par q 0 1 < 16) && decide (par q 1 1 < 4) && zeroPar q 3 5
  ready := fun s q _ => busyUnless (getF s (RK_STATE (par q 1 1)) != rkRunning
    && (getF s (RK_STATE (par q 1 1)) != rkStopped || getF s (RK_PARTITION (par q 1 1)) == par q 0 1))
  run := fun s q _ => .pending s (fun a id => checkRekey (startRekey a (par q 0 1) (par q 1 1) (par q 2 1) id) (par q 1 1))

def execRekey (r : BitVec 5) (p : Packet) (s : State) : Host.Outcome State Fault Refusal := fromRing cmdRekey r p s

/-- The line at the boundary fails its tag: the engine stops there (R444). -/
def stopRekey (s : State) (st : Nat) : State :=
  let p := getF s (RK_PARTITION st)
  let call := mget s.sec.rekeyCall 0 st
  let s1 := secAlarm (setF s (RK_STATE st) rkStopped) alTag 4 p st (getF s (RK_BOUNDARY st))
  finalReply { s1 with sec := { s1.sec with rekeyCall := mset s1.sec.rekeyCall 0 st 0 } } call rsDataAuth []

/-- REKEY_LINE: the line at B is rewritten under the new keys and B advances; lines of snapshot areas are skipped. -/
def execRekeyLine (stack : BitVec 2) (tagFail : Bool) (s : State) : Host.Outcome State Fault Refusal :=
  let st := stack.toNat
  let p := getF s (RK_PARTITION st)
  let b := getF s (RK_BOUNDARY st)
  if getF s (RK_STATE st) ≠ rkRunning ∨ getF s (RK_END st) ≤ b then .next s
  else if inSnapArea s p st b then .next (checkRekey (setF s (RK_BOUNDARY st) (b + 1)) st)
  else if tagFail ∨ ¬ tagGood s p st b then .next (stopRekey s st)
  else .next (checkRekey (stampLine (setF s (RK_BOUNDARY st) (b + 1)) p st b) st)

/-- A load or unload of partition `p` abandons its re-keys (R444). -/
def abandonRekeys (s : State) (p : Nat) : State :=
  (List.range 4).foldl (fun a st =>
    if getF a (RK_PARTITION st) = p ∧ (getF a (RK_STATE st) = rkRunning ∨ getF a (RK_STATE st) = rkStopped) then
      let call := mget a.sec.rekeyCall 0 st
      let b := setF { a with sec := { a.sec with oldGen := mset a.sec.oldGen 0 (p * 4 + st) 0,
                                                 rekeyCall := mset a.sec.rekeyCall 0 st 0 } } (RK_STATE st) 0
      finalReply b call rsBusy []
    else a) s

/-! ## Export and import of snapshots (R445, R446) -/

/-- The parameters that name a stack's part of a slot. -/
def copyParams : State → Request → Nat → Bool := fun _ q _ =>
  decide (par q 0 1 < 16) && decide (par q 1 1 < 4) && decide (par q 2 1 < 4) && zeroPar q 3 5

/-- A copy under way. -/
def copyOf (q : Request) (call : Nat) : Nat × Nat × Nat × Nat × Nat := (call, par q 0 1, par q 1 1, par q 2 1, par q 8 8)

/-- SNAP_EXPORT. -/
def cmdSnapExport : Cmd where
  opcode := 0x0B08
  ringsOnly := true
  length := lenIs 16
  scope := .plain
  right := ownPart 0
  params := copyParams
  ready := always
  run := fun s q _ => .pending s (fun a id => { a with sec := { a.sec with exports := a.sec.exports ++ [copyOf q id] } })

def execSnapExport (r : BitVec 5) (p : Packet) (s : State) : Host.Outcome State Fault Refusal := fromRing cmdSnapExport r p s

/-- A stack's part of a slot as it stands in HBM, 72 bytes a line: an imported copy as it came, else the lines that the device wrote. -/
def partBytes (s : State) (p slot st : Nat) : List Byte :=
  let n := partLines s p slot st
  let copy := mget s.sec.copies [] (copyKey p slot st)
  if copy.length = 72 * n then copy
  else (List.range n).flatMap (fun i =>
    rawLine s p st (partFirst s p slot st + i) ((List.range 64).map (fun j => Config.snapByte s.free (64 * i + j))))

/-- The function whose command ring a call came by: 0 for another way. -/
def callFn (s : State) (call : Nat) : Nat :=
  match s.ctl.calls.find? (fun c => c.id == call) with
  | some c => (match c.via with | .ring r => r | _ => 0)
  | none => 0

/-- SNAP_EXPORT_COMPLETE: the oldest export ends; ciphertext and tags stand in host memory. -/
def execSnapExportComplete (s : State) : Host.Outcome State Fault Refusal :=
  match s.sec.exports with
  | [] => .next s
  | (call, p, slot, st, addr) :: rest =>
    let n := partLines s p slot st
    let s1 := drawFree { hostWriteList s (callFn s call) addr (partBytes s p slot st) with sec := { s.sec with exports := rest } }
    .next (finalReply s1 call rsOk (leBytes 8 n))

/-- SNAP_IMPORT. -/
def cmdSnapImport : Cmd where
  opcode := 0x0B09
  ringsOnly := true
  length := lenIs 16
  scope := .plain
  right := ownPart 0
  params := copyParams
  ready := fun s _ _ => busyUnless (runState s == stStopped || runState s == stFaulted || runState s == stFrozen)
  run := fun s q _ => .pending s (fun a id => { a with sec := { a.sec with imports := a.sec.imports ++ [copyOf q id] } })

def execSnapImport (r : BitVec 5) (p : Packet) (s : State) : Host.Outcome State Fault Refusal := fromRing cmdSnapImport r p s

/-- The copies that a slot has got, by number, in plaintext. -/
def copiesOf (s : State) (slot : Nat) : List (Nat × List Byte) :=
  (s.sec.copies.filter (fun e => e.1 / 4 % 4 == slot)).map (fun e =>
    let p := e.1 / 16
    let st := e.1 % 4
    (e.1, (List.range (e.2.length / 72)).flatMap (fun i => rawPlain s p st (partFirst s p slot st + i) (copyLine e.2 i))))

/-- The tag of the descriptor that has been imported verifies (R446). -/
def descriptorGood (s : State) (p slot : Nat) : Bool :=
  rawGood s p 0 (partFirst s p slot 0) (copyLine (mget s.sec.copies [] (copyKey p slot 0)) 0)

/-- The copy is written into the area, whose lines' tags come with it. -/
def storeCopy (s : State) (p slot st : Nat) (copy : List Byte) : State :=
  let x := snapAt s p slot
  let a := x.areas.getD st (0, 0)
  let s1 := setSnap { s with sec := { s.sec with copies := mset s.sec.copies [] (copyKey p slot st) copy } } p slot
    { x with writing := true, importing := true, valid := false, invalid := false, imported := st :: x.imported.erase st }
  stampRange s1 st (getF s (HBM_BASE p st) + a.1) a.2 (mget s.sec.snapKey 0 p)

/-- All four stacks are in: the descriptor is checked (R446). -/
def finishImport (s : State) (p slot : Nat) (bad : Bool) : State × Nat :=
  let x := { snapAt s p slot with writing := false, importing := false, imported := [] }
  if bad ∨ descriptorGood s p slot = false then
    let a := x.areas.getD 0 (0, 0)
    (secAlarm (setSnap s p slot { x with invalid := true, valid := false }) alTag 3 p 0 (getF s (HBM_BASE p 0) + a.1), rsDataAuth)
  else
    let c := normalSnapshot (Config.importedSnapshot slot (mget s.sys.contents none slot) (copiesOf s slot))
    let s1 := setSnap s p slot { x with valid := true, invalid := false, cycle := BitVec.ofNat 48 c.cycle, epoch := BitVec.ofNat 32 c.epoch }
    ({ s1 with sys := { s1.sys with contents := mset s1.sys.contents none slot (some c) } }, rsOk)

/-- SNAP_IMPORT_COMPLETE: the oldest import ends with the copy read from host memory; `tagFail`: the descriptor's tag does
not verify. -/
def execSnapImportComplete (copy : List Byte) (tagFail : Bool) (s : State) : Host.Outcome State Fault Refusal :=
  match s.sec.imports with
  | [] => .next s
  | (call, p, slot, st, _) :: rest =>
    let s0 := { s with sec := { s.sec with imports := rest } }
    if copy.length ≠ 72 * partLines s p slot st then .next (finalReply s0 call rsBadParam [])
    else
      let s1 := storeCopy s0 p slot st copy
      if (List.range 4).all (fun k => ((snapAt s1 p slot).imported).contains k) then
        let f := finishImport s1 p slot tagFail
        .next (finalReply f.1 call f.2 [])
      else .next (finalReply s1 call rsOk [])

/-! ## The alarm (R434, R449) -/

/-- ALARM is cleared, and its log with it. -/
def clearAlarm (s : State) : State :=
  setFs s [(ALARM, 0), (ALARM_CAUSE, 0), (ALARM_CLASS, 0), (ALARM_PARTITION, 0), (ALARM_STACK, 0), (ALARM_CYCLE, 0), (ALARM_LINE, 0)]

/-- ALARM_CLEAR: partition 0 writes 1 to SEC_STATUS.ALARM. -/
def execAlarmClear (s : State) : Host.Outcome State Fault Refusal := byHost s clearAlarm

end Sys2Proof.Machine
end

