-- ==== Sys2Proof/Machine/Image.lean ====
section
/-!
DEFINITION. A device image as the loader reads it (R181 to R193, R201 to R210, R541): its header and tables, its configuration frames
and stream commands, the load space they write, and the placement of logical clusters on silicon.
-/
namespace Sys2Proof.Machine
open Sys2Proof Reg

/-! ## Numbers of a stream -/

/-- The little-endian number of `n` bytes from offset `o` of a stream. -/
def numAt (b : Nat → Byte) (o : Nat) : Nat → Nat
  | 0 => 0
  | n + 1 => (b o).toNat + 256 * numAt b (o + 1) n

/-- A list of `n` bytes from offset `o`. -/
def listAt (b : Nat → Byte) (o : Nat) : Nat → List Byte
  | 0 => []
  | n + 1 => b o :: listAt b (o + 1) n

/-- A rising list without its repeats. -/
def dedup : List Nat → List Nat
  | [] => []
  | x :: r =>
    match dedup r with
    | [] => [x]
    | y :: t => if x = y then y :: t else x :: y :: t

/-! ## The header (R191) -/

def imgFlags (b : Nat → Byte) : Nat := numAt b 0x08 4
def imgFoldable (b : Nat → Byte) : Bool := bitOf (imgFlags b) 0
def imgSealed (b : Nat → Byte) : Bool := bitOf (imgFlags b) 1
def imgPartial (b : Nat → Byte) : Bool := bitOf (imgFlags b) 2
def imgLevel (b : Nat → Byte) : Nat := numAt b 0x0C 1
def imgPart (b : Nat → Byte) : Nat := numAt b 0x0D 1
def imgDevs (b : Nat → Byte) : Nat := numAt b 0x0E 2
def imgId (b : Nat → Byte) : Nat := numAt b 0x10 16
def imgLen (b : Nat → Byte) : Nat := numAt b 0x20 8
def imgSect (b : Nat → Byte) : Nat := numAt b 0x28 4
def imgRights (b : Nat → Byte) : Nat := numAt b 0x2C 4
def imgBoundOff (b : Nat → Byte) : Nat := numAt b 0x30 4
def imgBoundLen (b : Nat → Byte) : Nat := numAt b 0x34 4
def imgMap (b : Nat → Byte) : Nat := numAt b 0x38 4
def imgPlaceOff (b : Nat → Byte) : Nat := numAt b 0x54 4
def imgAuthOff (b : Nat → Byte) : Nat := numAt b 0x58 4
def imgAuthLen (b : Nat → Byte) : Nat := numAt b 0x5C 4

/-! ## The section (R192, R193, R541) -/

def sectLdev (b : Nat → Byte) : Nat := numAt b (imgSect b) 2 % 512
def sectTiles (b : Nat → Byte) : Nat := numAt b (imgSect b + 2) 1 + 1
def sectTileOff (b : Nat → Byte) : Nat := numAt b (imgSect b + 4) 4
def sectSched (b : Nat → Byte) : Nat := numAt b (imgSect b + 8) 4
def sectTbit (b : Nat → Byte) : Nat := numAt b (imgSect b + 0xC) 4
def sectQbind (b : Nat → Byte) : Nat := numAt b (imgSect b + 0x10) 4
def sectCap (b : Nat → Byte) : Nat := numAt b (imgSect b + 0x14) 4
def sectFrames (b : Nat → Byte) : Nat := numAt b (imgSect b + 0x18) 4
def sectFrameLen (b : Nat → Byte) : Nat := numAt b (imgSect b + 0x1C) 4

/-- One entry of the logical tile table. -/
structure LTile where
  /-- its byte offset -/
  off : Nat
  lt : Nat
  /-- LC_COUNT -/
  n : Nat
  u : Nat
  f : Nat
  nroute : Nat
  nmmp : Nat
  nmsgp : Nat
  nblk : Nat
deriving DecidableEq, Repr

/-- The entry at byte offset `o`. -/
def ltileAt (b : Nat → Byte) (o : Nat) : LTile :=
  { off := o, lt := numAt b o 1, n := numAt b (o + 1) 1 + 1, u := numAt b (o + 2) 1, f := numAt b (o + 3) 1,
    nroute := numAt b (o + 4) 2, nmmp := numAt b (o + 6) 1, nmsgp := numAt b (o + 7) 1, nblk := numAt b (o + 8) 1 }

/-- The logical tiles of the section. -/
def ltilesOf (b : Nat → Byte) : List LTile := (List.range (sectTiles b)).map (fun i => ltileAt b (sectTileOff b + 16 * i))

/-- The entries of a table of a 4-byte COUNT and entries of 8 bytes: byte offset and value. -/
def tableOf (b : Nat → Byte) (o : Nat) : List (Nat × Nat) :=
  (List.range (numAt b o 4)).map (fun i => (o + 4 + 8 * i, numAt b (o + 4 + 8 * i) 8))

/-- The entries of the boundary table (R424). -/
def boundEntries (b : Nat → Byte) : List (Nat × Nat) :=
  if imgBoundOff b = 0 then []
  else (List.range (imgBoundLen b / 8)).map (fun i => (imgBoundOff b + 8 * i, numAt b (imgBoundOff b + 8 * i) 8))

/-- Fields of a boundary entry (R424): KIND, the logical cluster, INDEX, SADDR, BID. -/
def beKind (v : Nat) : Nat := bitsOf v 0 3
def beLc (v : Nat) : Nat := bitsOf v 3 7 * 16 + bitsOf v 10 4
def beIndex (v : Nat) : Nat := bitsOf v 14 12
def beSaddr (v : Nat) : Nat := bitsOf v 26 16
def beBid (v : Nat) : Nat := bitsOf v 42 16

/-- The placement entry of logical device `ld`: its byte offset. -/
def placeOff (b : Nat → Byte) (ld : Nat) : Option Nat :=
  ((List.range (imgDevs b)).map (fun i => imgPlaceOff b + 520 * i)).find? (fun o => numAt b o 2 == ld)

/-- LT_PLACE of a logical tile of a logical device; 0 where the image does not have it. -/
def placeWord (b : Nat → Byte) (ld lt : Nat) : Nat :=
  match placeOff b ld with
  | some o => numAt b (o + 8 + 4 * lt) 4
  | none => 0

/-- A logical cluster of a logical device exists. -/
def lcExists (b : Nat → Byte) (ld lc : Nat) : Bool :=
  let w := placeWord b ld (lc / 16)
  bitOf w 31 && decide (lc % 16 ≤ bitsOf w 16 4)

/-! ## The device table (R183, R220) -/

/-- Entry `i` of a device table: a field of `n` bytes at offset `o`. -/
def dtField (dt : List Byte) (i o n : Nat) : Nat := fieldAt dt (272 * i + o) n

/-- The entry of a logical device. -/
def dtIndex (dt : List Byte) (ld : Nat) : Option Nat := (List.range (dt.length / 272)).find? (fun i => dtField dt i 0 2 % 512 == ld)

/-- Physical device, fold flag and cluster map bit of a logical device. -/
def dtDev (dt : List Byte) (ld : Nat) : Nat := match dtIndex dt ld with | some i => dtField dt i 2 2 % 512 | none => 0
def dtFold (dt : List Byte) (ld : Nat) : Bool := match dtIndex dt ld with | some i => bitOf (dtField dt i 4 1) 0 | none => false
def dtEnabled (dt : List Byte) (ld pc : Nat) : Bool :=
  match dtIndex dt ld with | some i => bitOf (dtField dt i (0x10 + pc / 8) 1) (pc % 8) | none => false

/-- The half of a placement byte: 1 in half b of a folded load. -/
def halfOfPlace (fold : Bool) (w : Nat) : Bool := fold && bitOf w 15

/-- The tile of a placement word under a fold flag. -/
def tileOfPlace (fold : Bool) (w : Nat) : Nat := if fold then bitsOf w 8 7 else bitsOf w 0 7

/-- Where a logical cluster of the image runs: device, cluster of the device, half (R185, R188, R541). -/
def placeOfLc (b : Nat → Byte) (dt : List Byte) (ld lc : Nat) : Nat × Nat × Bool :=
  let w := placeWord b ld (lc / 16)
  let fold := dtFold dt ld
  let tile := tileOfPlace fold w
  let on := (List.range 16).filter (fun c => dtEnabled dt ld (tile * 16 + c))
  (dtDev dt ld, tile * 16 + on.getD (lc % 16) 0, halfOfPlace fold w)

/-! ## Frames and stream commands (R203 to R208) -/

/-- A stream command or a frame of payload. Tiles are physical tiles of the unfolded placement; `src` is the byte offset of the
command or frame. -/
inductive Item where
  | array (src : Nat) (tiles : List Nat) (addr len : Nat)
  | far (src die addr len : Nat)
  | fabric (src col addr len : Nat)
  | nop (src : Nat)
  | wreg (src : Nat) (tiles : List Nat) (off val : Nat)
  | fill (src : Nat) (tiles : List Nat) (addr len pat : Nat)
  | farFill (src die line count pat : Nat)
  | sectionEnd (src frames : Nat)
  | bad (src : Nat)
deriving DecidableEq, Repr

/-- A frame header: offset and fields. -/
structure FrameH where
  off : Nat
  kind : Nat
  die : Nat
  col : Nat
  rows : Nat
  len : Nat
  addr : Nat
  rsvd : Nat
deriving DecidableEq, Repr

def frameAt (b : Nat → Byte) (o : Nat) : FrameH :=
  let w := numAt b o 4
  { off := o, kind := bitsOf w 0 4, die := bitsOf w 4 2, col := bitsOf w 6 6, rows := bitsOf w 12 4, rsvd := bitsOf w 16 16,
    len := numAt b (o + 4) 4, addr := numAt b (o + 8) 8 }

/-- The tiles of the unfolded placement that a frame addresses (R25, R203). -/
def frameTiles (f : FrameH) : List Nat := ((List.range 4).filter (bitOf f.rows)).map (fun r => f.die * 32 + r * 8 + f.col)

/-- The header of a frame is as R203 gives it, and the frame ends by `e`. -/
def frameGood (f : FrameH) (e : Nat) : Bool :=
  f.rsvd == 0 && f.len % 8 == 0 && decide (8 ≤ f.len) && decide (f.len ≤ 1048576) && decide (f.off + 16 + f.len ≤ e) &&
    (if f.kind = 1 then decide (f.col < 8) && f.rows != 0
     else if f.kind = 2 then decide (f.col < 8) && f.rows != 0 && f.addr == 0
     else if f.kind = 3 then f.col == 0 && f.rows == 0 && f.addr % 64 == 0
     else f.kind == 4 && f.die == 0 && f.rows == 0)

/-- The frames from offset `o` to `e`; the first bad one ends the list. -/
def framesFrom (b : Nat → Byte) (e : Nat) : Nat → Nat → List FrameH
  | 0, _ => []
  | n + 1, o =>
    if e ≤ o then []
    else
      let f := frameAt b o
      if frameGood f e then f :: framesFrom b e n (o + 16 + f.len) else [f]

/-- The end of the section's frames. -/
def framesEnd (b : Nat → Byte) : Nat := sectFrames b + sectFrameLen b

/-- The frames of the section. -/
def framesOf (b : Nat → Byte) : List FrameH := framesFrom b (framesEnd b) (sectFrameLen b / 16 + 1) (sectFrames b)

/-- ALEN of a stream command (R207). -/
def alenOf (cmd : Nat) : Option Nat :=
  match cmd with
  | 0 => some 0
  | 1 => some 16
  | 2 => some 24
  | 3 => some 24
  | 4 => some 8
  | _ => none

/-- One stream command of a frame. -/
def commandAt (b : Nat → Byte) (f : FrameH) (o : Nat) : Item :=
  let x := numAt b (o + 8) 8
  let y := numAt b (o + 16) 8
  let z := numAt b (o + 24) 8
  match numAt b o 1 with
  | 0 => .nop o
  | 1 => .wreg o (frameTiles f) x y
  | 2 => .fill o (frameTiles f) x y z
  | 3 => .farFill o f.die x y z
  | _ => .sectionEnd o (numAt b (o + 8) 4)

/-- The stream commands from offset `o` to `e`; a bad one ends the list. -/
def commandsFrom (b : Nat → Byte) (f : FrameH) (e : Nat) : Nat → Nat → List Item
  | 0, _ => []
  | n + 1, o =>
    if e ≤ o then []
    else
      match alenOf (numAt b o 1) with
      | some a =>
        if numAt b (o + 4) 4 = a ∧ numAt b (o + 1) 3 = 0 ∧ o + 8 + a ≤ e then commandAt b f o :: commandsFrom b f e n (o + 8 + a)
        else [.bad o]
      | none => [.bad o]

/-- What a frame holds. -/
def frameItems (b : Nat → Byte) (f : FrameH) : List Item :=
  if ¬ frameGood f (framesEnd b) then [.bad f.off]
  else if f.kind = 1 then [.array f.off (frameTiles f) f.addr f.len]
  else if f.kind = 2 then commandsFrom b f (f.off + 16 + f.len) (f.len / 8 + 1) (f.off + 16)
  else if f.kind = 3 then [.far f.off f.die f.addr f.len]
  else [.fabric f.off f.col f.addr f.len]

/-! ## The load space (R205, R206) -/

/-- Regions of the logical tile load space: first byte and size. -/
def spaceRegions : List (Nat × Nat) :=
  [(0, 0x1400000), (0x2000000, 0x20000), (0x2100000, 0x10000), (0x2110000, 0x4000), (0x2120000, 0x4000), (0x2130000, 0x8000),
   (0x3000000, 0x300000)]

/-- A range lies in one of the regions. -/
def inSpace (addr len : Nat) : Bool := spaceRegions.any (fun r => decide (r.1 ≤ addr) && decide (addr + len ≤ r.1 + r.2))

/-- Bytes of the load space of one logical tile. -/
def spaceSize : Nat := 0x4000000

/-- The contents after the last frame: array bytes of logical tile lt at lt * 2^26 + offset, and MMP configuration words by
(lt*32 + port)*4 + word. -/
structure Space where
  bytes : Memory
  mmp : Map Nat
deriving DecidableEq, Repr

/-- Write a pattern of 8 bytes over `n` units of 8. -/
def fillWords (m : Memory) (a pat : Nat) : Nat → Memory
  | 0 => m
  | n + 1 => fillWords (wrBytes m a 8 pat) (a + 8) pat n

/-- The logical tiles that a list of tiles of the unfolded placement holds. -/
def ltsOn (ts : List LTile) (tiles : List Nat) : List Nat := (ts.filter (fun t => tiles.contains (t.u % 128))).map (fun t => t.lt)

/-- One item takes effect on the load space. -/
def applyItem (b : Nat → Byte) (ts : List LTile) (sp : Space) (i : Item) : Space :=
  match i with
  | .array src tiles addr len =>
    { sp with bytes := (ltsOn ts tiles).foldl (fun m lt => wrList m (lt * spaceSize + addr) (listAt b (src + 16) len)) sp.bytes }
  | .fill _ tiles addr len pat =>
    { sp with bytes := (ltsOn ts tiles).foldl (fun m lt => fillWords m (lt * spaceSize + addr) pat (len / 8)) sp.bytes }
  | .wreg _ tiles off val =>
    let k := (off - 0x1000) / 32 * 4 + off % 32 / 8
    { sp with mmp := (ltsOn ts tiles).foldl (fun m lt => mset m 0 (lt * 128 + k) val) sp.mmp }
  | _ => sp

/-! ## FABRIC payloads (R210, R213) -/

/-- Where the scratchpad banks 48 to 63 begin, and their size. -/
def fabricBank : Nat := 48 * 262144
def fabricRoom : Nat := 16 * 262144

/-- The payloads of the FABRIC frames, one after the other. -/
def fabricPayload (b : Nat → Byte) : List Item → List Byte
  | [] => []
  | .fabric src _ _ len :: r => listAt b (src + 16) len ++ fabricPayload b r
  | _ :: r => fabricPayload b r

/-- The fabric's configuration, by column * 65536 + offset, from the payloads that lie from byte `a` of the scratchpad on. -/
def fabricConfig (sp : Memory) : List Item → Nat → Memory → Memory
  | [], _, m => m
  | .fabric _ col addr len :: r, a, m => fabricConfig sp r (a + len) (wrList m (col * 65536 + addr) (rdList sp a len))
  | _ :: r, a, m => fabricConfig sp r a m

/-- An image as the loader works on it. -/
structure Image where
  b : Nat → Byte
  dt : List Byte
  fold : Bool
  tiles : List LTile
  items : List Item
  space : Space

/-- The staged image of the load in progress. -/
def imageOf (s : State) : Image :=
  let b := staged s
  let ts := ltilesOf b
  let items := (framesOf b).flatMap (frameItems b)
  { b := b, dt := s.load.dt, fold := flag s LOAD_FOLD, tiles := ts, items := items,
    space := items.foldl (applyItem b ts) ⟨[], []⟩ }

/-! ## Contents (R206) -/

/-- A number of `n` bytes of a logical tile's load space. -/
def Image.num (g : Image) (lt off n : Nat) : Nat := rdBytes g.space.bytes (lt * spaceSize + off) n

/-- Indexes of the units of `size` bytes that hold a listed byte in a region of a logical tile. -/
def Image.listed (g : Image) (lt base bytes size : Nat) : List Nat :=
  dedup ((g.space.bytes.filter (fun e => decide (lt * spaceSize + base ≤ e.1) && decide (e.1 < lt * spaceSize + base + bytes))).map
    (fun e => (e.1 - (lt * spaceSize + base)) / size))

/-- An instruction word of the image with its place. -/
structure IWord where
  t : LTile
  k : Nat
  bp : Nat
  step : Nat
  w : BitVec 80
deriving DecidableEq, Repr

/-- The words of a logical tile that are not all 0: every other word is a NOP with every field 0. -/
def Image.wordsOf (g : Image) (t : LTile) : List IWord :=
  (g.listed t.lt 0 0x1400000 10).map (fun i =>
    { t := t, k := i / 131072, bp := i / 2048 % 64, step := i % 2048, w := BitVec.ofNat 80 (g.num t.lt (i * 10) 10) })

/-- Every word of the image. -/
def Image.words (g : Image) : List IWord := g.tiles.flatMap g.wordsOf

/-- Program register, block entry, send-map entry, route entry and receive control of the image. -/
def Image.prog (g : Image) (t : LTile) (k : Nat) : Nat := g.num t.lt (0x2120000 + k * 1024) 4
def Image.len (g : Image) (t : LTile) (k : Nat) : Nat := bitsOf (g.prog t k) 0 11 + 1
def Image.nblk (g : Image) (t : LTile) (k : Nat) : Nat := bitsOf (g.prog t k) 11 6 + 1
def Image.block (g : Image) (t : LTile) (k e : Nat) : BitVec 64 := BitVec.ofNat 64 (g.num t.lt (0x2120200 + k * 1024 + e * 8) 8)
def Image.send (g : Image) (t : LTile) (k step : Nat) : Nat := g.num t.lt (0x2100000 + k * 4096 + step * 2) 2
def Image.route (g : Image) (t : LTile) (e : Nat) : BitVec 32 := BitVec.ofNat 32 (g.num t.lt (0x2110000 + e * 4) 4)
def Image.recv (g : Image) (t : LTile) (k n : Nat) : Nat := g.num t.lt (0x2130000 + k * 2048 + n * 4) 4

/-- The logical clusters of the section. -/
def Image.lcs (g : Image) : List (LTile × Nat) := g.tiles.flatMap (fun t => (List.range t.n).map (fun k => (t, k)))

/-- Route entries of a logical tile that are not 0. -/
def Image.entries (g : Image) (t : LTile) : List Nat := g.listed t.lt 0x2110000 0x4000 4

/-- Receive controls of a logical tile that are VALID: (k, offset). -/
def Image.controls (g : Image) (t : LTile) : List (Nat × Nat) :=
  (g.listed t.lt 0x2130000 0x8000 4).filterMap (fun i =>
    if bitOf (g.recv t (i / 512) (i % 512)) 31 then some (i / 512, i % 512) else none)

/-- An MMP configuration word. -/
def Image.mmpWord (g : Image) (t : LTile) (p w : Nat) : Nat := mget g.space.mmp 0 (t.lt * 128 + p * 4 + w)
def Image.mmpBind (g : Image) (t : LTile) (p : Nat) : Nat := bitsOf (g.mmpWord t p 0) 0 2
def Image.mmpOwner (g : Image) (t : LTile) (p : Nat) : Nat := bitsOf (g.mmpWord t p 0) 5 4
def Image.mmpDw (g : Image) (t : LTile) (p : Nat) : Nat := bitsOf (g.mmpWord t p 0) 16 8 + 1
def Image.mmpDepth (g : Image) (t : LTile) (p : Nat) : Nat := bitsOf (g.mmpWord t p 1) 0 40 + 1
def Image.mmpSw (g : Image) (t : LTile) (p : Nat) : Nat := storageWidth (g.mmpDw t p)

/-- Bound ports of the section. -/
def Image.ports (g : Image) : List (LTile × Nat) :=
  g.tiles.flatMap (fun t => ((List.range 32).filter (fun p => g.mmpBind t p != 0)).map (fun p => (t, p)))

/-- Lines of a FAR region. -/
def Image.farLines (g : Image) (t : LTile) (p : Nat) : Nat := ceilDiv (g.mmpDepth t p * max 1 (g.mmpSw t p / 8)) 64

/-! ## Placement on this device (R184, R185, R188) -/

/-- The enabled clusters of a tile. -/
def enabledOf (s : State) (tile : Nat) : List Nat := (List.range 16).filter (fun c => !mget s.eng.clusterOff false (tile * 16 + c))

/-- Tile and half of a logical tile in this load. -/
def Image.tileOf (g : Image) (t : LTile) : Nat := if g.fold then t.f % 128 else t.u % 128
def Image.halfOf (g : Image) (t : LTile) : Bool := g.fold && bitOf t.f 7

/-- The cluster that runs index `k` of a logical tile. -/
def Image.pcOf (g : Image) (s : State) (t : LTile) (k : Nat) : Nat := g.tileOf t * 16 + (enabledOf s (g.tileOf t)).getD k 0

/-- The logical tile of a number. -/
def Image.ltile (g : Image) (lt : Nat) : Option LTile := g.tiles.find? (fun t => t.lt == lt)

/-! ## Translation (R189) -/

/-- Replace `n` bits from `lo` on of a word. -/
def putBitsAt (w : BitVec 80) (lo n v : Nat) : BitVec 80 :=
  BitVec.ofNat 80 (w.toNat - bitsOf w.toNat lo n * 2 ^ lo + v % 2 ^ n * 2 ^ lo)

/-- Low bits of the operand fields that an opcode reads, and of DST where it is written (R53). -/
def slotFields (w : BitVec 80) : List Nat :=
  let o := opcOf w
  let reads :=
    if o = opEval ∨ o = opEvalm then [50, 39, 28, 17]
    else if o = opChk then [50, 39, 28]
    else if [opSts, opMpa, opMpg, opMsw, opMsp, opStopc, opTpo].contains o then [50]
    else []
  if writesDst w then 61 :: reads else reads

/-- The bits that an opcode's PORT field moves by in half b: model memory ports by 16, message ports by 8. -/
def portShift (w : BitVec 80) : Nat :=
  let o := opcOf w
  if [opMpa, opMpg, opMpr].contains o then 16 else if [opMsr, opMsw, opMsp].contains o then 8 else 0

/-- The word that the loader writes for half b. -/
def halfBWord (w : BitVec 80) : BitVec 80 :=
  let w1 := (slotFields w).foldl (fun x lo => putBitsAt x lo 11 (physSlot true (bitsOf x.toNat lo 11))) w
  if portShift w = 0 then w1 else putBitsAt w1 45 5 (portOf w + portShift w)

/-- A block entry: its gating slot is translated under COND 1. -/
def halfBBlock (e : BitVec 64) : BitVec 64 :=
  if blkCond e then BitVec.ofNat 64 (e.toNat - blkSlot e * 2 ^ 24 + physSlot true (blkSlot e) * 2 ^ 24) else e

/-- A route entry in physical form: destinations by placement, GROUP FIRST moved for a tile of half b (R104, R189). -/
def physRoute (g : Image) (half : Bool) (e : BitVec 32) : BitVec 32 :=
  if rtType e = 1 then
    let (dev, pc, h) := placeOfLc g.b g.dt (bitsOf e.toNat 20 9) (bitsOf e.toNat 9 11)
    BitVec.ofNat 32 (2 ^ 30 + dev * 2 ^ 20 + pc / 512 * 2 ^ 18 + pc / 16 % 32 * 2 ^ 13 + pc % 16 * 2 ^ 9
      + (bitsOf e.toNat 0 9 + (if h then 224 else 0)) % 512)
  else if rtType e = 2 then BitVec.ofNat 32 (e.toNat + (if half then 2048 else 0))
  else e

/-- The physical feeder of a receive control (R97, R206). -/
def physFeeder (g : Image) (v : Nat) : Feeder :=
  let ld := bitsOf v 19 9
  let w := placeWord g.b ld (bitsOf v 12 7)
  let fold := dtFold g.dt ld
  let tile := tileOfPlace fold w
  { dev := BitVec.ofNat 9 (dtDev g.dt ld), die := BitVec.ofNat 2 (tile / 32), tile := BitVec.ofNat 5 (tile % 32),
    entry := BitVec.ofNat 12 (bitsOf v 0 12 + (if halfOfPlace fold w then 2048 else 0)) }

end Sys2Proof.Machine
end

