-- ==== Sys2Proof/Machine/Checks.lean ====
section
/-!
DEFINITION. The loader checks (R194 to R196, R542): one definition per check, in ascending check ID. Each answers the first
load-error record it finds.
-/
namespace Sys2Proof.Machine
open Sys2Proof Reg

/-- The first record of a list. -/
def firstErr (l : List (Option LoadErr)) : Option LoadErr := l.findSome? id

/-- A record with status BAD_PARAM. -/
def badLoad (check ldev detail loc : Nat) : LoadErr := ⟨check, ldev, detail, loc, rsBadParam⟩

/-- A record unless a condition holds. -/
def unlessOk (ok : Bool) (e : LoadErr) : Option LoadErr := if ok then none else some e

/-- The first element of a list that fails gives the record. -/
def eachOk {α : Type} (l : List α) (ok : α → Bool) (e : α → LoadErr) : Option LoadErr := (l.find? (fun x => !ok x)).map e

/-- The section's logical device. -/
def Image.ldev (g : Image) : Nat := sectLdev g.b

/-- Location words (R195, R197): the placement as far as it is known, and the logical cluster, step and BP of the word concerned. -/
def dieLoc (s : State) (die : Nat) : Nat := locWord (getF s DEV_ID) die 0 0 0 0 0
def tileLoc (s : State) (g : Image) (t : LTile) : Nat := locWord (getF s DEV_ID) (g.tileOf t / 32) (g.tileOf t % 32) 0 0 0 0
def lcLoc (s : State) (g : Image) (t : LTile) (k bp step : Nat) : Nat :=
  let pc := g.pcOf s t k
  locWord (getF s DEV_ID) (pc / 512) (pc / 16 % 32) (pc % 16) bp step (t.lt * 16 + k)
def wordLoc (s : State) (g : Image) (w : IWord) : Nat := lcLoc s g w.t w.k w.bp w.step

/-- The location of a word that a table names by its logical cluster; 0 where the section has no such logical cluster. -/
def namedLoc (s : State) (g : Image) (lc bp step : Nat) : Nat :=
  match g.ltile (lc / 16) with
  | some t => if lc % 16 < t.n then lcLoc s g t (lc % 16) bp step else 0
  | none => 0

/-- A check over every word, with a DETAIL. -/
def eachWord (s : State) (g : Image) (check : Nat) (ok : IWord → Bool) (detail : IWord → Nat) : Option LoadErr :=
  eachOk g.words ok (fun w => badLoad check g.ldev (detail w) (wordLoc s g w))

/-- A check over every logical cluster. -/
def eachLc (s : State) (g : Image) (check : Nat) (ok : LTile → Nat → Bool) (detail : LTile → Nat → Nat) : Option LoadErr :=
  eachOk g.lcs (fun x => ok x.1 x.2) (fun x => badLoad check g.ldev (detail x.1 x.2) (lcLoc s g x.1 x.2 0 0))

/-! ## 0x0101, 0x0102: the header and the tables -/

/-- A record of the header: LDEV 0x3FF, LOCATION 0 (R202). -/
def headErr (check off : Nat) : LoadErr := badLoad check 0x3FF off 0

def check0101 (b : Nat → Byte) : Option LoadErr :=
  firstErr [unlessOk (numAt b 0 4 == 0x36394B53) (headErr 0x0101 0), unlessOk (numAt b 4 2 == 1) (headErr 0x0101 4),
    unlessOk (numAt b 6 2 == 256) (headErr 0x0101 6),
    unlessOk (decide (1 ≤ imgDevs b) && decide (imgDevs b ≤ 512)) (headErr 0x0101 0x0E)]

/-- Lengths of the header against the command's STREAM_LEN (R201, R202). -/
def lengths0102 (b : Nat → Byte) (len : Nat) : Option LoadErr :=
  firstErr [unlessOk (imgLen b == len) (headErr 0x0102 0x20), unlessOk (decide (0x100 ≤ imgAuthOff b)) (headErr 0x0102 0x58),
    unlessOk (imgAuthOff b + imgAuthLen b == imgLen b) (headErr 0x0102 0x58)]

/-- The tables of a stream: byte offset of the field that places each, first byte, length. -/
def tablesOf (b : Nat → Byte) : List (Nat × Nat × Nat) :=
  let q := imgSect b
  [(0x28, q, 32), (0x54, imgPlaceOff b, 520 * imgDevs b), (0x58, imgAuthOff b, imgAuthLen b),
   (q + 4, sectTileOff b, 16 * sectTiles b), (q + 8, sectSched b, 512), (q + 0xC, sectTbit b, 4 + 8 * numAt b (sectTbit b) 4),
   (q + 0x10, sectQbind b, 4 + 8 * numAt b (sectQbind b) 4), (q + 0x14, sectCap b, 4 + 8 * numAt b (sectCap b) 4),
   (q + 0x18, sectFrames b, sectFrameLen b)]
  ++ (if imgBoundOff b = 0 then [] else [(0x30, imgBoundOff b, imgBoundLen b)])

/-- Two tables share a byte. -/
def tablesMeet (x y : Nat × Nat × Nat) : Bool :=
  x.1 != y.1 && decide (x.2.1 < y.2.1 + y.2.2) && decide (y.2.1 < x.2.1 + x.2.2)

/-- The numbers of a list rise strictly. -/
def rising : List Nat → Bool
  | [] => true
  | [_] => true
  | x :: y :: r => decide (x < y) && rising (y :: r)

/-- The first place where a list of (offset, number) does not rise: that offset. -/
def notRising : List (Nat × Nat) → Option Nat
  | [] => none
  | [_] => none
  | x :: y :: r => if x.2 < y.2 then notRising (y :: r) else some y.1

/-- Reserved bits of a byte of the fabric's configuration space (R397 to R401, R405, R406, R410, R414). -/
def fabricReserved (o : Nat) : Nat :=
  if o < 0x8000 then (if o % 16 = 9 then 0xE0 else if 9 < o % 16 then 0xFF else 0)
  else if o < 0x8200 then (if o % 4 = 2 then 0xFC else if o % 4 = 3 then 0x7F else 0)
  else if o < 0x8900 then (if o % 2 = 1 then 0xC0 else 0)
  else if o < 0x8910 then (if o % 4 = 0 then 0xC0 else 0xFF)
  else if o < 0x8914 then (if o % 4 = 0 then 0xF0 else 0xFF)
  else if o < 0x8960 then (if o % 8 = 0 then 0 else if o % 8 = 1 then 0xF0 else 0xFF)
  else if o < 0x8988 then (if o = 0x8980 then 0xC0 else if 0x8984 ≤ o then 0xFF else 0)
  else if o < 0x89C8 then (if o % 2 = 1 then 0xF0 else 0)
  else if 0x89E0 ≤ o ∧ o < 0x89E2 then (if o = 0x89E1 then 0xC0 else 0)
  else 0

/-- The ranges of a column's configuration space (R401). -/
def fabricRanges : List (Nat × Nat) :=
  [(0, 0x8000), (0x8000, 512), (0x8200, 1718), (0x8900, 20), (0x8940, 32), (0x8980, 8), (0x89C0, 16), (0x89E0, 2), (0x9000, 18432)]

/-- An offset that no range holds, or whose byte sets a reserved bit. -/
def fabricByteBad (b : Nat → Byte) (col addr src i : Nat) : Bool :=
  let o := addr + i
  !(fabricRanges.any (fun r => decide (r.1 ≤ o) && decide (o < r.1 + r.2)))
    || ((b (src + 16 + i)).toNat &&& fabricReserved o != 0 && !((0x89C0 ≤ o && o < 0x89D0 && col % 4 != 0) || (0x89E0 ≤ o && o < 0x89E2 && col != 0)))

/-- Bytes of the fabric payload of the stream. -/
def fabricBytes (g : Image) : Nat := g.items.foldl (fun n i => match i with | .fabric _ _ _ l => n + l | _ => n) 0

/-- One item meets R206 to R208 and R401. -/
def itemBad (b : Nat → Byte) (i : Item) : Option Nat :=
  match i with
  | .bad src => some src
  | .array src _ addr len => if inSpace addr len then none else some src
  | .fill src _ addr len _ => if addr % 8 = 0 ∧ len % 8 = 0 ∧ inSpace addr len then none else some src
  | .wreg src _ off _ => if 0x1000 ≤ off ∧ off < 0x1400 ∧ off % 8 = 0 ∧ off % 32 < 0x18 then none else some src
  | .fabric src col addr len => ((List.range len).find? (fabricByteBad b col addr src)).map (fun i => src + 16 + i)
  | _ => none

/-- SECTION_END is the only command of the last frame, and counts the frames. -/
def sectionEndOk (b : Nat → Byte) (g : Image) : Bool :=
  let fs := framesOf b
  match fs.getLast? with
  | none => false
  | some f =>
    (match frameItems b f with
     | [.sectionEnd _ n] => n == fs.length
     | _ => false)
    && (g.items.filter (fun i => match i with | .sectionEnd _ _ => true | _ => false)).length == 1

def check0102 (s : State) (g : Image) : Option LoadErr :=
  let b := g.b
  let ts := tablesOf b
  let at_ := fun (o : Nat) => badLoad 0x0102 g.ldev o 0
  firstErr [lengths0102 b s.load.len,
    eachOk ts (fun t => decide (t.2.1 + t.2.2 ≤ imgLen b) && decide (0x100 ≤ t.2.1) && ts.all (fun u => !tablesMeet t u)) (fun t => at_ t.1),
    unlessOk (sectFrames b % 8 == 0) (at_ (imgSect b + 0x18)),
    eachOk g.tiles (fun t => decide (t.lt < 128)) (fun t => at_ t.off),
    (notRising (g.tiles.map (fun t => (t.off, t.lt)))).map at_,
    (notRising ((List.range (imgDevs b)).map (fun i => (imgPlaceOff b + 520 * i, numAt b (imgPlaceOff b + 520 * i) 2 % 512)))).map at_,
    (g.items.findSome? (itemBad b)).map at_,
    unlessOk (sectionEndOk b g) (at_ (match (framesOf b).getLast? with | some f => f.off | none => sectFrames b)),
    unlessOk (decide (fabricBytes g ≤ 2 ^ 22)) (at_ (sectFrames b))]

/-! ## 0x0103: reserved bits -/

/-- A list of byte ranges holds only 0: the first offset that does not. -/
def zeroBytesAt (b : Nat → Byte) (l : List (Nat × Nat)) : Option Nat :=
  l.findSome? (fun r => ((List.range r.2).map (r.1 + ·)).find? (fun o => b o != 0))

/-- Offsets of the placement table whose reserved bits are set (R541). -/
def placeReserved (b : Nat → Byte) : Option Nat :=
  (List.range (imgDevs b)).findSome? (fun i =>
    let o := imgPlaceOff b + 520 * i
    if numAt b o 2 / 512 ≠ 0 then some o
    else if numAt b (o + 2) 6 ≠ 0 then some (o + 2)
    else ((List.range 128).map (fun lt => o + 8 + 4 * lt)).find? (fun p =>
      let w := numAt b p 4
      bitsOf w 20 11 != 0 || bitOf w 7 || (!bitOf w 31 && w != 0)))

/-- The word that an entry of the capture map names (R368). -/
def capLoc (s : State) (g : Image) (v : Nat) : Nat := namedLoc s g (bitsOf v 0 7 * 16 + bitsOf v 7 4) (bitsOf v 11 6) (bitsOf v 17 11)

/-- The capture map (R368). -/
def capReserved (v : Nat) : Bool := bitOf v 29 || bitsOf v 44 20 != 0 || (bitOf v 28 && bitsOf v 36 8 != 0)

/-- The boundary table (R424). -/
def boundBad (b : Nat → Byte) (v : Nat) : Bool :=
  decide (3 < beKind v) || bitsOf v 58 6 != 0 || !lcExists b (sectLdev b) (beLc v)
    || (beKind v == 1 && beIndex v != 0) || (beKind v != 1 && beSaddr v != 0) || (decide (beKind v < 2) && beBid v != 0)

/-- Reserved bits of array contents of a logical tile: offset in the load space and LC index. -/
def arrayReserved (g : Image) (t : LTile) : List (Nat × Nat) :=
  ((List.range 16).filterMap (fun k => if g.prog t k / 2 ^ 18 ≠ 0 then some (0x2120000 + k * 1024, k) else none))
  ++ ((List.range 16).flatMap (fun k => (List.range 64).filterMap (fun e =>
      if (g.block t k e).toNat / 2 ^ 35 ≠ 0 then some (0x2120200 + k * 1024 + e * 8, k) else none)))
  ++ ((g.listed t.lt 0x2100000 0x10000 2).filterMap (fun i =>
      if g.send t (i / 2048) (i % 2048) / 4096 ≠ 0 then some (0x2100000 + i * 2, i / 2048) else none))
  ++ ((g.entries t).filterMap (fun e =>
      let v := (g.route t e).toNat
      if (rtType (g.route t e) = 1 ∧ bitOf v 29) ∨ (rtType (g.route t e) = 2 ∧ bitsOf v 15 15 ≠ 0) then some (0x2110000 + e * 4, 0) else none))
  ++ ((g.listed t.lt 0x2130000 0x8000 4).filterMap (fun i =>
      if bitsOf (g.recv t (i / 512) (i % 512)) 28 3 ≠ 0 then some (0x2130000 + i * 4, i / 512) else none))

def check0103 (s : State) (g : Image) : Option LoadErr :=
  let b := g.b
  let at_ := fun (o : Nat) => badLoad 0x0103 g.ldev o 0
  let q := imgSect b
  firstErr [unlessOk (decide (imgFlags b < 8)) (at_ 0x08),
    unlessOk (decide (imgRights b < 64) && (imgSealed b || imgRights b == 0)) (at_ 0x2C),
    (zeroBytesAt b [(0x3C, 4), (0x51, 1), (0x60, 160), (q + 3, 1)]).map at_,
    unlessOk (decide (numAt b q 2 < 512)) (at_ q),
    eachOk g.tiles (fun t => decide (t.u < 128)) (fun t => at_ (t.off + 2)),
    eachOk g.tiles (fun t => imgFoldable b || t.f == 0) (fun t => at_ (t.off + 3)),
    (zeroBytesAt b (g.tiles.map (fun t => (t.off + 9, 7)))).map at_,
    (placeReserved b).map at_,
    eachOk (tableOf b (sectCap b)) (fun e => !capReserved e.2) (fun e => badLoad 0x0103 g.ldev e.1 (capLoc s g e.2)),
    unlessOk (imgBoundLen b % 8 == 0) (at_ 0x34),
    eachOk (boundEntries b) (fun e => !boundBad b e.2) (fun e => badLoad 0x0103 g.ldev e.1 (namedLoc s g (beLc e.2) 0 0)),
    g.tiles.findSome? (fun t => ((arrayReserved g t).head?).map (fun e => badLoad 0x0103 g.ldev e.1 (lcLoc s g t e.2 0 0)))]

/-! ## What the contents use -/

/-- Slots that a word names in fields its opcode uses. -/
def slotsOf (w : BitVec 80) : List Nat := (slotFields w).map (fun lo => bitsOf w.toNat lo 11)

/-- The block that holds a step of a logical cluster. -/
def blockOf (g : Image) (t : LTile) (k step : Nat) : Option Nat :=
  (List.range (g.nblk t k)).find? (fun e => decide (blkFirst (g.block t k e) ≤ step) && decide (step ≤ blkLast (g.block t k e)))

/-- Gating slots of a logical cluster. -/
def gatesOf (g : Image) (t : LTile) (k : Nat) : List Nat :=
  (List.range (g.nblk t k)).filterMap (fun e => if blkCond (g.block t k e) then some (blkSlot (g.block t k e)) else none)

/-- Every slot that a logical tile's words name. -/
def wordSlots (g : Image) (t : LTile) : List Nat := (g.wordsOf t).flatMap (fun w => slotsOf w.w)
/-- Every slot that its gates name; none may be a receive slot (0x0403). -/
def gateSlots (g : Image) (t : LTile) : List Nat := (List.range t.n).flatMap (gatesOf g t)

/-- The word is of one of a list of opcodes. -/
def isOp (l : List Nat) (w : IWord) : Bool := l.contains (opcOf w.w)

def isMmp : IWord → Bool := isOp [opMpa, opMpg, opMpr]
def isMsg : IWord → Bool := isOp [opMsr, opMsw, opMsp]
def isState : IWord → Bool := isOp [opLds, opSts]

/-- The largest number of a list plus 1; 0 of none. -/
def topOf (l : List Nat) : Nat := l.foldl (fun n x => max n (x + 1)) 0

/-- STATE sources of the clock schedule: clock, logical cluster, address (R122). -/
def clockWord (b : Nat → Byte) (c : Nat) : Nat := numAt b (sectSched b + 16 * c) 16
def stateSources (b : Nat → Byte) : List (Nat × Nat × Nat) :=
  ((List.range 32).filter (fun c => clockWord b c % 4 == 3)).map (fun c => (c, bitsOf (clockWord b c) 64 11, bitsOf (clockWord b c) 75 16))

/-- Queue bindings (R349): byte offset and value; fields. -/
def qbinds (b : Nat → Byte) : List (Nat × Nat) := tableOf b (sectQbind b)
def qbLt (v : Nat) : Nat := bitsOf v 0 7
def qbPort (v : Nat) : Nat := bitsOf v 8 4
def qbQueue (v : Nat) : Nat := bitsOf v 12 15
def qbCount (v : Nat) : Nat := bitsOf v 27 3
def qbWidth (v : Nat) : Nat := bitsOf v 31 8
def qbOwner (v : Nat) : Nat := bitsOf v 39 4

/-- Ports, blocks and routes of a logical tile. -/
def boundMmps (g : Image) (t : LTile) : List Nat := (List.range 32).filter (fun p => g.mmpBind t p != 0)
def tileMmps (g : Image) (t : LTile) : List Nat := ((g.wordsOf t).filter isMmp).map (fun w => portOf w.w) ++ boundMmps g t
/-- Reading the flag of a message port is no use of the port (R92). -/
def tileMsgPorts (g : Image) (t : LTile) : List Nat :=
  ((g.wordsOf t).filter isMsg).map (fun w => portOf w.w) ++ ((qbinds g.b).filter (fun e => qbLt e.2 == t.lt)).map (fun e => qbPort e.2)
def tileBlks (g : Image) (t : LTile) : List Nat :=
  ((List.range 32).filter (fun p => g.mmpBind t p == 1)).map (fun p => bitsOf (g.mmpWord t p 2) 0 7 + bitsOf (g.mmpWord t p 2) 7 7)

/-- Words that send, with the rank of each in its step and its route ID (R77, R99). -/
def sendsOf (g : Image) (t : LTile) : List (IWord × Nat) :=
  let ws := (g.wordsOf t).filter (fun w => sndOf w.w && hasResult w.w)
  ws.map (fun w =>
    (w, g.send t w.k w.step % 4096 + (ws.filter (fun v => v.k == w.k && v.step == w.step && decide (v.bp < w.bp))).length))

/-- Entries of a GROUP. -/
def membersOf (e : BitVec 32) : List Nat := (List.range (rtCount e + 1)).map (rtFirst e + ·)

/-- Route IDs that a logical tile uses: sent on, or in use in its table. -/
def tileEntries (g : Image) (t : LTile) : List Nat := (g.entries t).filter (fun e => rtType (g.route t e) != 0)
def tileRoutes (g : Image) (t : LTile) : List Nat := (sendsOf g t).map Prod.snd ++ tileEntries g t

/-- VECTOR entries of the capture map on a die of the unfolded placement, and of the folded one. -/
def capLt (v : Nat) : Nat := bitsOf v 0 7
def capTrigger (v : Nat) : Bool := bitOf v 28
def capPos (v : Nat) : Nat := bitsOf v 30 14
def capDie (g : Image) (folded : Bool) (v : Nat) : Nat :=
  match g.ltile (capLt v) with
  | some t => (if folded then t.f % 128 else t.u % 128) / 32
  | none => 0
def vectorsOn (g : Image) (folded : Bool) (d : Nat) : List (Nat × Nat) :=
  (tableOf g.b (sectCap g.b)).filter (fun e => !capTrigger e.2 && capDie g folded e.2 == d)

/-! ## 0x0104 to 0x0107 -/

/-- A region of a logical tile's load space, in units of one LC index. -/
def lcRegions : List (Nat × Nat) := [(0, 0x140000), (0x2000000, 0x2000), (0x2100000, 0x1000), (0x2120000, 0x400), (0x2130000, 0x800)]

/-- Contents for an LC index at or above LC_COUNT (R181). -/
def beyondCount (g : Image) (t : LTile) : Bool :=
  lcRegions.any (fun r => !(g.listed t.lt (r.1 + t.n * r.2) ((16 - t.n) * r.2) 1).isEmpty)

/-- The summaries of the header and of the tile tables. NROUTE is the number of entries in use, members of a GROUP among them. -/
def check0104 (s : State) (g : Image) : Option LoadErr :=
  let b := g.b
  let at_ := fun (o : Nat) => badLoad 0x0104 g.ldev o 0
  let tile := fun (t : LTile) (o : Nat) => badLoad 0x0104 g.ldev (t.off + o) (tileLoc s g t)
  let slots := g.tiles.flatMap (wordSlots g)
  let max_ := fun (o n : Nat) (l : List Nat) => unlessOk (decide (topOf l ≤ numAt b o n)) (at_ o)
  let maxN := fun (o n : Nat) (l : List Nat) => unlessOk (l.all (fun x => decide (x ≤ numAt b o n))) (at_ o)
  firstErr [maxN 0x40 2 (g.lcs.map (fun x => g.len x.1 x.2)), max_ 0x42 2 ((slots ++ g.tiles.flatMap (gateSlots g)).filter (fun x => decide (x < 0x600))),
    max_ 0x44 2 ((slots.filter isRecv).map (· - 0x600) ++ g.tiles.flatMap (fun t => (g.controls t).map Prod.snd)),
    maxN 0x46 1 (g.lcs.map (fun x => g.nblk x.1 x.2)), maxN 0x47 1 (g.tiles.map (fun t => t.n)),
    max_ 0x48 4 ((g.words.filter isState).map (fun w => saddrOf w.w) ++ (stateSources b).map (fun x => x.2.2)),
    max_ 0x4C 1 (g.tiles.flatMap (tileMmps g)), max_ 0x4D 1 (g.tiles.flatMap (tileMsgPorts g)),
    max_ 0x4E 2 (g.tiles.flatMap (tileRoutes g)), max_ 0x50 1 (g.tiles.flatMap (tileBlks g)),
    maxN 0x52 2 ((List.range 4).map (fun d => (vectorsOn g false d).length)),
    eachOk g.tiles (fun t => decide ((tileEntries g t).length ≤ t.nroute)) (fun t => tile t 4),
    eachOk g.tiles (fun t => decide (topOf (tileMmps g t) ≤ t.nmmp)) (fun t => tile t 6),
    eachOk g.tiles (fun t => decide (topOf (tileMsgPorts g t) ≤ t.nmsgp)) (fun t => tile t 7),
    eachOk g.tiles (fun t => decide (topOf (tileBlks g t) ≤ t.nblk)) (fun t => tile t 8),
    eachOk g.tiles (fun t => !beyondCount g t) (fun t => tile t 1)]

def check0105 (s : State) (g : Image) : Option LoadErr :=
  unlessOk (decide (imgLevel g.b ≤ getF s SYS_LEVEL)) { badLoad 0x0105 g.ldev (imgLevel g.b) 0 with status := rsLevelLow }

/-- The header names the load's partition and kind, a sealed image comes with a WRAPPED slot, and a PARTIAL load carries no
FABRIC frame (R210, R221, R423). -/
def check0106 (s : State) (g : Image) : Option LoadErr :=
  unlessOk (imgPart g.b == loadPart s && imgPartial g.b == loadPartial s
      && (!imgSealed g.b || flag s (KS_WRAPPED s.load.keySlot)) && (!loadPartial s || fabricBytes g == 0))
    { badLoad 0x0106 g.ldev (imgPart g.b) 0 with status := rsNoRight }

/-- Byte `i` of the device's enabled-cluster map (R186). -/
def clusterByte (s : State) (i : Nat) : Nat :=
  ((List.range 8).filter (fun j => !mget s.eng.clusterOff false (8 * i + j))).foldl (fun n j => n + 2 ^ j) 0

/-- The device table is in order, and its LDEV values are those of the placement table (R220). -/
def deviceTableOk (g : Image) (i : Nat) : Bool :=
  let n := g.dt.length / 272
  let d := fun (j o k : Nat) => dtField g.dt j o k
  decide (d i 0 2 < 512) && decide (d i 2 2 < 512) && decide (d i 4 1 < 2) && d i 5 11 == 0
    && (i == 0 || decide (d (i - 1) 0 2 < d i 0 2)) && (List.range n).all (fun j => j == i || d j 2 2 != d i 2 2)
    && (placeOff g.b (d i 0 2)).isSome

def check0107 (s : State) (g : Image) : Option LoadErr :=
  let n := g.dt.length / 272
  let err := fun (ld : Nat) => badLoad 0x0107 g.ldev ld 0
  firstErr [eachOk (List.range n) (deviceTableOk g) (fun i => err (dtField g.dt i 0 2 % 512)),
    eachOk ((List.range (imgDevs g.b)).map (fun i => numAt g.b (imgPlaceOff g.b + 520 * i) 2)) (fun ld => (dtIndex g.dt ld).isSome) err,
    unlessOk (match dtIndex g.dt g.ldev with
      | none => false
      | some i => dtField g.dt i 2 2 == getF s DEV_ID && bitOf (dtField g.dt i 4 1) 0 == g.fold
          && (List.range 256).all (fun j => dtField g.dt i (0x10 + j) 1 == clusterByte s j)) (err g.ldev),
    unlessOk ((List.range 128).all (fun lt =>
      placeWord g.b g.ldev lt == (match g.ltile lt with
        | some t => t.u + t.f * 2 ^ 8 + (t.n - 1) * 2 ^ 16 + 2 ^ 31
        | none => 0))) (err g.ldev)]

/-! ## 0x0201, 0x0202: placement -/

/-- Another logical tile of the load stands on the same tile, or half of a tile. -/
def placeClash (g : Image) (t : LTile) : Bool :=
  g.tiles.any (fun u => u.lt != t.lt && g.tileOf u == g.tileOf t && g.halfOf u == g.halfOf t)

/-- The tiles of the unfolded placement that the ARRAY and COMMAND frames of the section address (R204). -/
def addressedTiles (b : Nat → Byte) : List Nat :=
  ((framesOf b).filter (fun f => f.kind == 1 || f.kind == 2)).flatMap frameTiles

def check0201 (s : State) (g : Image) : Option LoadErr :=
  firstErr [eachOk g.tiles (fun t => getF s (TILE_PARTITION (g.tileOf t)) == loadPart s && !placeClash g t)
      (fun t => badLoad 0x0201 g.ldev (g.tileOf t) (tileLoc s g t)),
    eachOk (addressedTiles g.b) (fun x => g.tiles.any (fun t => t.u == x)) (fun x => badLoad 0x0201 g.ldev x 0)]

def check0202 (s : State) (g : Image) : Option LoadErr :=
  eachOk g.tiles (fun t => decide (t.n ≤ (enabledOf s (g.tileOf t)).length)) (fun t => badLoad 0x0202 g.ldev t.n (tileLoc s g t))

/-! ## 0x0301 to 0x0309: folded limits (R179, R187) -/

/-- Boundary entries that list a ROUTE_OUT entry, or a RECV_IN slot. -/
def routeOut (g : Image) (t : LTile) (e : Nat) : Bool :=
  (boundEntries g.b).any (fun x => beKind x.2 == 2 && beLc x.2 / 16 == t.lt && beIndex x.2 == e)
def recvIn (g : Image) (t : LTile) (k off : Nat) : Bool :=
  (boundEntries g.b).any (fun x => beKind x.2 == 3 && beLc x.2 == t.lt * 16 + k && beIndex x.2 == off)

/-- What a logical tile names, each with the location word that a refusal of it carries: the word's, the logical cluster's or the
tile's (R195). Slots of words and gates: -/
def slotLocs (s : State) (g : Image) (t : LTile) : List (Nat × Nat) :=
  (g.wordsOf t).flatMap (fun w => (slotsOf w.w).map (fun x => (x, wordLoc s g w)))
    ++ (List.range t.n).flatMap (fun k => (gatesOf g t k).map (fun x => (x, lcLoc s g t k 0 0)))

/-- receive offsets of DIRECT entries, receive controls and RECV_IN entries; -/
def offsetLocs (s : State) (g : Image) (t : LTile) : List (Nat × Nat) :=
  (g.entries t).filterMap (fun e => if rtType (g.route t e) = 1 ∧ ¬ routeOut g t e then some (rtSlot (g.route t e), tileLoc s g t) else none)
    ++ (g.controls t).map (fun x => (x.2, lcLoc s g t x.1 0 0))
    ++ ((boundEntries g.b).filter (fun x => beKind x.2 == 3 && beLc x.2 / 16 == t.lt)).map (fun x => (beIndex x.2, lcLoc s g t (beLc x.2 % 16) 0 0))

/-- route IDs; -/
def routeLocs (s : State) (g : Image) (t : LTile) : List (Nat × Nat) :=
  (sendsOf g t).map (fun x => (x.2, wordLoc s g x.1))
    ++ (g.listed t.lt 0x2100000 0x10000 2).map (fun i => (g.send t (i / 2048) (i % 2048) + 15, lcLoc s g t (i / 2048) 0 (i % 2048)))
    ++ (tileEntries g t).map (fun e => (e, tileLoc s g t))

/-- state addresses of words and of initial-state contents; -/
def stateLocs (s : State) (g : Image) (t : LTile) : List (Nat × Nat) :=
  ((g.wordsOf t).filter isState).map (fun w => (saddrOf w.w, wordLoc s g w))
    ++ (g.listed t.lt 0x2000000 0x20000 1).map (fun i =>
      (i % 8192 * 8 + ((List.range 8).find? (bitOf (g.num t.lt (0x2000000 + i) 1))).getD 0, lcLoc s g t (i / 8192) 0 0))

/-- model memory ports; -/
def mmpLocs (s : State) (g : Image) (t : LTile) : List (Nat × Nat) :=
  ((g.wordsOf t).filter isMmp).map (fun w => (portOf w.w, wordLoc s g w)) ++ (boundMmps g t).map (fun p => (p, tileLoc s g t))

/-- on-die blocks of ports and of contents; -/
def blkLocs (s : State) (g : Image) (t : LTile) : List (Nat × Nat) :=
  (tileBlks g t ++ g.listed t.lt 0x3000000 0x300000 32768).map (fun x => (x, tileLoc s g t))

/-- message ports and MPF slots. -/
def msgLocs (s : State) (g : Image) (t : LTile) : List (Nat × Nat) :=
  ((g.wordsOf t).filter isMsg).map (fun w => (portOf w.w, wordLoc s g w))
    ++ ((slotLocs s g t).filter (fun x => decide (0x7D0 ≤ x.1) && decide (x.1 < 0x7E0))).map (fun x => (x.1 - 0x7D0, x.2))
    ++ ((qbinds g.b).filter (fun e => qbLt e.2 == t.lt)).map (fun e => (qbPort e.2, namedLoc s g (t.lt * 16 + qbOwner e.2) 0 0))

def foldedSlot (x : Nat) : Bool := x < 0x300 || (0x600 ≤ x && x < 0x6E0) || 0x7C0 ≤ x

def checkFolded (s : State) (g : Image) : Option LoadErr :=
  let within := fun (check : Nat) (l : LTile → List (Nat × Nat)) (ok : Nat → Bool) (base : Nat) =>
    eachOk (g.tiles.flatMap l) (fun x => ok x.1) (fun x => badLoad check g.ldev (base + x.1) x.2)
  if ¬ g.fold then none
  else
    firstErr [unlessOk (imgFoldable g.b) (badLoad 0x0301 g.ldev 0 0),
      eachLc s g 0x0302 (fun t k => decide (g.len t k ≤ 1024)) g.len,
      eachLc s g 0x0303 (fun t k => decide (g.nblk t k ≤ 32)) g.nblk,
      within 0x0304 (slotLocs s g) foldedSlot 0, within 0x0304 (offsetLocs s g) (fun x => decide (x < 224)) 0x600,
      within 0x0305 (stateLocs s g) (fun x => decide (x ≤ 0x7FFF)) 0,
      eachOk (stateSources g.b) (fun x => decide (x.2.2 ≤ 0x7FFF)) (fun x => badLoad 0x0305 g.ldev x.2.2 (namedLoc s g x.2.1 0 0)),
      within 0x0306 (routeLocs s g) (fun x => decide (x ≤ 0x7FF)) 0, within 0x0307 (mmpLocs s g) (fun x => decide (x ≤ 15)) 0,
      within 0x0307 (blkLocs s g) (fun x => decide (x ≤ 47)) 0, within 0x0308 (msgLocs s g) (fun x => decide (x ≤ 7)) 0,
      eachOk (List.range 4) (fun d => decide ((vectorsOn g true d).length ≤ 16384))
        (fun d => badLoad 0x0309 g.ldev (vectorsOn g true d).length (dieLoc s d))]

/-! ## 0x0402 to 0x040A: programs and words -/

/-- The block table covers steps 0 to L - 1 in order: the first entry that breaks it (R118). -/
def blockGap (g : Image) (t : LTile) (k : Nat) : Option Nat :=
  let n := g.nblk t k
  (List.range n).find? (fun e =>
    blkFirst (g.block t k e) != (if e = 0 then 0 else blkLast (g.block t k (e - 1)) + 1)
      || decide (blkLast (g.block t k e) < blkFirst (g.block t k e)) || (e + 1 == n && blkLast (g.block t k e) + 1 != g.len t k))

/-- Bits of a word that its opcode uses (R48 to R53). -/
def usedBits (o : Nat) : List (Nat × Nat) :=
  (72, 8) ::
    (if o = opEval then [(61, 11), (50, 11), (39, 11), (28, 11), (17, 11), (0, 16)]
     else if o = opEvalm then [(61, 11), (50, 11), (39, 11), (28, 11), (17, 11), (0, 8)]
     else if o = opLds then [(61, 11), (45, 16)]
     else if o = opSts then [(50, 11), (34, 16)]
     else if o = opMpa then [(50, 11), (45, 5), (44, 1), (36, 8)]
     else if o = opMpg then [(50, 11), (45, 5), (44, 1), (30, 6)]
     else if o = opMpr then [(61, 11), (45, 5), (36, 8), (30, 6)]
     else if o = opMsr ∨ o = opTpi then [(61, 11), (45, 5), (36, 8)]
     else if o = opMsw ∨ o = opTpo then [(50, 11), (45, 5), (36, 8)]
     else if o = opMsp then [(50, 11), (45, 5), (44, 1)]
     else if o = opChk then [(50, 11), (39, 11), (28, 11)]
     else if o = opStopc then [(50, 11)]
     else [])

/-- The lowest bit of a word that is set and must be 0. -/
def unusedBit (w : BitVec 80) : Option Nat :=
  (List.range 80).find? (fun i => w.getLsbD i && !(usedBits (opcOf w)).any (fun r => decide (r.1 ≤ i) && decide (i < r.1 + r.2)))

/-- What a word writes in its step: kind and number (0 local slot, 1 state bit, 2 port register bit, 3 outbound target bit). -/
def targetOfWord (w : BitVec 80) : List (Nat × Nat) :=
  let o := opcOf w
  (if writesDst w then [(0, dstOf w)] else []) ++
  (if o = opSts then [(1, saddrOf w)]
   else if o = opMpa then [(2, (portOf w * 2 + (selOf w).toNat) * 256 + bitIdxOf w)]
   else if o = opTpo then [(3, portOf w * 256 + bitIdxOf w)] else [])

/-- Two words of one step write the same thing, and neither is EVALM (0x0408). -/
def doubleWrite (g : Image) (w : IWord) : Option (Nat × Nat) :=
  (targetOfWord w.w).find? (fun x => opcOf w.w != opEvalm &&
    (g.wordsOf w.t).any (fun v => v.k == w.k && v.step == w.step && v.bp != w.bp && opcOf v.w != opEvalm && (targetOfWord v.w).contains x))

/-- Operand slots of a word. -/
def operandsOf (w : BitVec 80) : List Nat := ((slotFields w).filter (· != 61)).map (fun lo => bitsOf w.toNat lo 11)

def reservedSpecial (x : Nat) : Bool := 0x7C4 ≤ x && x ≤ 0x7CF

/-- Words that send in the step of `w`. -/
def sendersAt (g : Image) (w : IWord) : Nat :=
  ((g.wordsOf w.t).filter (fun v => v.k == w.k && v.step == w.step && sndOf v.w && hasResult v.w)).length

def checkPrograms (s : State) (g : Image) : Option LoadErr :=
  let sends := g.tiles.flatMap (sendsOf g)
  firstErr [eachLc s g 0x0402 (fun t k => (blockGap g t k).isNone) (fun t k => (blockGap g t k).getD 0),
    eachLc s g 0x0403 (fun t k => (gatesOf g t k).all (fun x => !isRecv x && !reservedSpecial x))
      (fun t k => ((gatesOf g t k).find? (fun x => isRecv x || reservedSpecial x)).getD 0),
    eachWord s g 0x0404 (fun w => !illegalOpc (opcOf w.w)) (fun w => opcOf w.w),
    eachWord s g 0x0405 (fun w => (unusedBit w.w).isNone) (fun w => (unusedBit w.w).getD 0),
    eachWord s g 0x0406 (fun w => !writesDst w.w || decide (dstOf w.w < 0x600)) (fun w => dstOf w.w),
    eachWord s g 0x0407 (fun w => (operandsOf w.w).all (fun x => !reservedSpecial x)) (fun w => ((operandsOf w.w).find? reservedSpecial).getD 0),
    eachWord s g 0x0408 (fun w => (doubleWrite g w).isNone) (fun w => ((doubleWrite g w).getD (0, 0)).2),
    eachWord s g 0x0409 (fun w => !(sndOf w.w && hasResult w.w) || decide (sendersAt g w ≤ 16)) (sendersAt g),
    eachOk sends (fun x => decide (x.2 ≤ 4095)) (fun x => badLoad 0x040A g.ldev x.2 (wordLoc s g x.1))]

/-! ## 0x0501 to 0x0506: routes -/

/-- An entry is a member of a GROUP of its table. -/
def isMember (g : Image) (t : LTile) (e : Nat) : Bool :=
  (g.entries t).any (fun x => rtType (g.route t x) == 2 && (membersOf (g.route t x)).contains e)

/-- An entry is as R100 and R101 give it. -/
def entryOk (g : Image) (t : LTile) (e : Nat) : Bool :=
  let v := g.route t e
  if rtType v = 3 then false
  else if rtType v = 2 then
    decide (1 ≤ rtCount v) && decide (rtFirst v + rtCount v ≤ 4095) && (membersOf v).all (fun m => rtType (g.route t m) == 1)
  else true

/-- Pairs of a logical tile and an entry of its table. -/
def Image.allEntries (g : Image) : List (LTile × Nat) := g.tiles.flatMap (fun t => (g.entries t).map (fun e => (t, e)))

/-- DIRECT entries that the loader resolves by their destination fields: (tile, entry), logical device, LC, receive offset. -/
def directs (g : Image) : List ((LTile × Nat) × Nat × Nat × Nat) :=
  (g.allEntries.filter (fun x => rtType (g.route x.1 x.2) == 1 && !routeOut g x.1 x.2)).map (fun x =>
    let v := (g.route x.1 x.2).toNat
    (x, bitsOf v 20 9, bitsOf v 9 11, bitsOf v 0 9))

/-- The DIRECT entries of this section that name a receive slot: logical tile and entry. -/
def ownFeeds (g : Image) (t : LTile) (k off : Nat) : List (LTile × Nat) :=
  ((directs g).filter (fun x => x.2 == (g.ldev, t.lt * 16 + k, off))).map Prod.fst

/-- The feeder that a VALID receive control names: logical device, logical tile and entry (R206). -/
def controlFeeder (v : Nat) : Nat × Nat × Nat := (bitsOf v 19 9, bitsOf v 12 7, bitsOf v 0 12)

/-- A read receive slot is fed: by an entry of this section, by the entry of another section that its control names, or across a
partition boundary. -/
def slotFed (g : Image) (t : LTile) (k off : Nat) : Bool :=
  let v := g.recv t k off
  !(ownFeeds g t k off).isEmpty || (bitOf v 31 && (controlFeeder v).1 != g.ldev) || recvIn g t k off

/-- A receive slot has no second feeder beside an entry of this section or a RECV_IN entry: its control, where VALID, names that entry
and no other, and no slot has both. -/
def oneFeeder (g : Image) (t : LTile) (k off : Nat) : Bool :=
  let v := g.recv t k off
  let own := ownFeeds g t k off
  !(recvIn g t k off && (bitOf v 31 || !own.isEmpty))
    && (!bitOf v 31 || own.all (fun x => controlFeeder v == (g.ldev, x.1.lt, x.2)))

/-- Receive slots of a logical tile that a control or a RECV_IN entry names: (k, offset). -/
def claimedSlots (g : Image) (t : LTile) : List (Nat × Nat) :=
  g.controls t ++ ((boundEntries g.b).filter (fun x => beKind x.2 == 3 && beLc x.2 / 16 == t.lt)).map (fun x => (beLc x.2 % 16, beIndex x.2))

/-- Receive slots that a word reads and nothing feeds. -/
def unfed (g : Image) (w : IWord) : Option Nat := (operandsOf w.w).find? (fun x => isRecv x && !slotFed g w.t w.k (x - 0x600))

/-- BIDs of a KIND in the images of the other partitions. -/
def otherBids (s : State) (kind : Nat) : List Nat :=
  ((imageParts s).filter (fun p => p != loadPart s)).flatMap (fun p =>
    ((mget s.sec.boundary [] p).filter (fun e => beKind e.toNat == kind)).map (fun e => beBid e.toNat))

/-- A ROUTE_OUT or RECV_IN entry repeats a BID, or names no DIRECT entry or receive slot (R425). -/
def bidBad (s : State) (g : Image) (v : Nat) : Bool :=
  let k := beKind v
  if k < 2 then false
  else
    decide (1 < ((boundEntries g.b).filter (fun x => beKind x.2 == k && beBid x.2 == beBid v)).length) || (otherBids s k).contains (beBid v)
      || (if k = 2 then (match g.ltile (beLc v / 16) with | some t => rtType (g.route t (beIndex v)) != 1 | none => true)
          else decide (448 ≤ beIndex v))

/-- A route ID of a tile is sent on by more than one logical cluster. -/
def sharedRoute (g : Image) (t : LTile) : Option Nat :=
  ((sendsOf g t).find? (fun x => (sendsOf g t).any (fun y => y.2 == x.2 && y.1.k != x.1.k))).map Prod.snd

/-! ### Gates (R542) -/

/-- A word that some cycle can execute: its logical cluster is enabled and runs the step. -/
def inProgram (g : Image) (w : IWord) : Bool := bitOf (g.prog w.t w.k) 17 && decide (w.step < g.len w.t w.k)

/-- The gate of a step: ALWAYS, or a slot with its POL. -/
def gateAt (g : Image) (t : LTile) (k step : Nat) : Option (Nat × Bool) :=
  match blockOf g t k step with
  | some e => if blkCond (g.block t k e) then some (blkSlot (g.block t k e), blkPol (g.block t k e)) else none
  | none => none

/-- The gate's value follows from the cycle number and the image. -/
def gateDecidable (g : Image) : Option (Nat × Bool) → Bool
  | none => true
  | some (x, _) => (0x7C0 ≤ x && x ≤ 0x7C3) || (0x7E0 ≤ x && clockWord g.b (x - 0x7E0) % 4 != 3)

/-- A clock that is not in STATE mode, in cycle `n` (R123). -/
def clockAt (v n : Nat) : Bool :=
  if v % 4 = 1 then decide ((n + bitsOf v 18 16) % (bitsOf v 2 16 + 1) = 0)
  else if v % 4 = 2 then bitOf v (64 + n % (bitsOf v 34 6 + 1))
  else false

/-- A cycle-decidable gate in cycle `n`: the block runs. -/
def gateRuns (g : Image) (n : Nat) : Option (Nat × Bool) → Bool
  | none => true
  | some (x, pol) =>
    let v := if x = 0x7C1 then true else if x = 0x7C2 then n == 0 else if x = 0x7C3 then n % 2 == 1
      else if 0x7E0 ≤ x then clockAt (clockWord g.b (x - 0x7E0)) n else false
    v != pol

/-- The period of a gate. -/
def gatePeriod (g : Image) : Option (Nat × Bool) → Nat
  | none => 1
  | some (x, _) =>
    if x = 0x7C3 then 2
    else if 0x7E0 ≤ x then
      let v := clockWord g.b (x - 0x7E0)
      if v % 4 = 1 then bitsOf v 2 16 + 1 else if v % 4 = 2 then bitsOf v 34 6 + 1 else 1
    else 1

/-- The cycles over which a list of gates is evaluated: cycle 0 and one common period; `none`: left to run time. -/
def gateCycles (g : Image) (l : List (Option (Nat × Bool))) : Option (List Nat) :=
  let p := l.foldl (fun n x => Nat.lcm n (gatePeriod g x)) 1
  if l.all (gateDecidable g) ∧ p ≤ 1048576 then some (List.range (p + 1)) else none

/-- Gates of the sends on a receive slot of this section, and of its consumes. -/
def sendGates (g : Image) (t : LTile) (k off : Nat) : List (Option (Nat × Bool)) :=
  (ownFeeds g t k off).flatMap (fun x =>
    let u := x.1
    let e := x.2
    ((sendsOf g u).filter (fun y => inProgram g y.1 &&
      (y.2 == e || (rtType (g.route u y.2) == 2 && (membersOf (g.route u y.2)).contains e)))).map (fun y => gateAt g u y.1.k y.1.step))

def consumeGates (g : Image) (t : LTile) (k off : Nat) : List (Option (Nat × Bool)) :=
  let steps := ((g.wordsOf t).filter (fun w =>
    w.k == k && inProgram g w && cnsOf w.w && (operandsOf w.w).contains (0x600 + off))).map (fun w => w.step)
  (dedup (sortNat steps)).map (gateAt g t k)

/-- 0x0506 for one receive slot that an entry of this section feeds. -/
def slotBalanced (g : Image) (t : LTile) (k off : Nat) : Bool :=
  if (ownFeeds g t k off).isEmpty ∨ recvIn g t k off then true
  else
    let a := sendGates g t k off
    let c := consumeGates g t k off
    match gateCycles g (a ++ c) with
    | none => true
    | some l => l.all (fun n => (a.filter (gateRuns g n)).length == (c.filter (gateRuns g n)).length)

/-- The receive slots of the section that its DIRECT entries name: logical tile, index and offset. -/
def fedSlots (g : Image) : List (LTile × Nat × Nat) :=
  (directs g).filterMap (fun x =>
    match g.ltile (x.2.2.1 / 16) with
    | some t => if x.2.1 = g.ldev then some (t, x.2.2.1 % 16, x.2.2.2) else none
    | none => none)

def checkRoutes (s : State) (g : Image) : Option LoadErr :=
  let err := fun (check detail : Nat) (t : LTile) => badLoad check g.ldev detail (tileLoc s g t)
  let ds := directs g
  firstErr [eachOk g.allEntries (fun x => entryOk g x.1 x.2) (fun x => err 0x0501 x.2 x.1),
    eachOk (g.tiles.flatMap (fun t => (sendsOf g t).map (fun x => (t, x.2)))) (fun x => !isMember g x.1 x.2) (fun x => err 0x0501 x.2 x.1),
    eachOk ds (fun x => lcExists g.b x.2.1 x.2.2.1 && decide (x.2.2.2 ≤ 447)) (fun x => err 0x0502 x.1.2 x.1.1),
    eachOk ds (fun x => !ds.any (fun y => y.1 != x.1 && y.2 == x.2)) (fun x => err 0x0503 (0x600 + x.2.2.2) x.1.1),
    eachWord s g 0x0503 (fun w => (unfed g w).isNone) (fun w => (unfed g w).getD 0),
    eachOk (g.tiles.flatMap (fun t => (claimedSlots g t).map (fun x => (t, x)))) (fun x => oneFeeder g x.1 x.2.1 x.2.2)
      (fun x => badLoad 0x0503 g.ldev (0x600 + x.2.2) (lcLoc s g x.1 x.2.1 0 0)),
    eachOk g.tiles (fun t => (sharedRoute g t).isNone) (fun t => err 0x0503 ((sharedRoute g t).getD 0) t),
    eachOk (g.tiles.flatMap (sendsOf g)) (fun x => rtType (g.route x.1.t x.2) == 1 || rtType (g.route x.1.t x.2) == 2)
      (fun x => badLoad 0x0504 g.ldev x.2 (wordLoc s g x.1)),
    eachOk (boundEntries g.b) (fun e => !bidBad s g e.2) (fun e => badLoad 0x0505 g.ldev (beIndex e.2) (namedLoc s g (beLc e.2) 0 0)),
    eachOk (fedSlots g) (fun x => slotBalanced g x.1 x.2.1 x.2.2) (fun x => badLoad 0x0506 g.ldev (0x600 + x.2.2) (lcLoc s g x.1 x.2.1 0 0))]

/-! ## 0x0601 to 0x060A: model memory -/

/-- A port's configuration meets R152 and R153. -/
def mmpOk (g : Image) (t : LTile) (p : Nat) : Bool :=
  let w0 := g.mmpWord t p 0
  let w1 := g.mmpWord t p 1
  let w2 := g.mmpWord t p 2
  let sw := g.mmpSw t p
  g.mmpBind t p != 3 && decide (w0 < 2 ^ 24) && decide (w1 < 2 ^ 40) && !bitOf w0 9 && decide (bitsOf w0 10 6 ≤ 39)
    && (g.mmpBind t p == 0 || decide (g.mmpOwner t p < t.n))
    && decide (g.mmpDepth t p ≤ 2 ^ (bitsOf w0 10 6 + 1)) && (!bitOf w0 3 || decide (g.mmpDw t p ≤ 128))
    && (g.mmpBind t p != 1 || (decide (w2 < 2 ^ 14) && decide (bitsOf w2 0 7 + bitsOf w2 7 7 ≤ 95)
          && decide (g.mmpDepth t p ≤ (bitsOf w2 7 7 + 1) * (262144 / sw))))
    && (g.mmpBind t p != 2 || decide (w2 < 2 ^ 30))

/-- A port word's BIT or register index is inside the port's widths (R64, R66, R171). -/
def bitInPort (g : Image) (w : IWord) : Bool :=
  let p := portOf w.w
  let dw := g.mmpDw w.t p
  let i := bitIdxOf w.w
  if opcOf w.w = opMpr then decide (i < dw)
  else if opcOf w.w ≠ opMpa then true
  else if ¬ selOf w.w then decide (i < bitsOf (g.mmpWord w.t p 0) 10 6 + 1)
  else if bitOf (g.mmpWord w.t p 0) 3 then decide (i < dw) || (decide (128 ≤ i) && decide (i < 128 + dw))
  else decide (i < dw)

/-- The words of an opcode on the port and SEQ of `w`. -/
def onEntry (g : Image) (w : IWord) (o : Nat) (wr : Bool) : List IWord :=
  (g.wordsOf w.t).filter (fun v =>
    inProgram g v && opcOf v.w == o && portOf v.w == portOf w.w && seqOf v.w == seqOf w.w && (o == opMpr || selOf v.w == wr))

def wordGate (g : Image) (w : IWord) : Option (Nat × Bool) := gateAt g w.t w.k w.step

/-- Two MPGs run in one cycle as far as the loader can show (0x0604). -/
def bothRun (g : Image) (v w : IWord) : Bool :=
  let x := wordGate g v
  let y := wordGate g w
  (v.k == w.k && blockOf g v.t v.k v.step == blockOf g w.t w.k w.step)
    || (x.isSome && x == y && (v.k == w.k || (x.getD (0, false)).1 ≥ 0x600))
    || (match gateCycles g [x, y] with
        | none => false
        | some l => l.any (fun n => gateRuns g n x && gateRuns g n y))

/-- Another MPG with the SEQ and port of `w` runs in a cycle in which `w` runs. -/
def seqClash (g : Image) (w : IWord) : Bool :=
  inProgram g w && (onEntry g w opMpg true ++ onEntry g w opMpg false).any (fun v => v != w && bothRun g v w)

/-- Every cycle that runs an MPR of the entry runs a read MPG of it (0x0606). -/
def readsPaired (g : Image) (w : IWord) : Bool :=
  let a := (onEntry g w opMpg false).map (wordGate g)
  let c := (onEntry g w opMpr false).map (wordGate g)
  match gateCycles g (a ++ c) with
  | none => true
  | some l => l.all (fun n => !c.any (gateRuns g n) || a.any (gateRuns g n))

/-- The storage of a port: die, first unit and number of units, in blocks on die and lines in FAR memory. -/
def storageOf (g : Image) (t : LTile) (p : Nat) : Nat × Nat × Nat :=
  let w2 := g.mmpWord t p 2
  if g.mmpBind t p = 1 then (t.lt + 4, bitsOf w2 0 7, bitsOf w2 7 7 + 1) else (g.tileOf t / 32, bitsOf w2 0 30, g.farLines t p)

/-- Two ports overlap in storage and do not share it as R151 allows. -/
def badShare (g : Image) (x y : LTile × Nat) : Bool :=
  let a := storageOf g x.1 x.2
  let c := storageOf g y.1 y.2
  a.1 == c.1 && decide (a.2.1 < c.2.1 + c.2.2) && decide (c.2.1 < a.2.1 + a.2.2) &&
    !(x.1.lt == y.1.lt && a == c && g.mmpDw x.1 x.2 == g.mmpDw y.1 y.2 && g.mmpDepth x.1 x.2 == g.mmpDepth y.1 y.2)

/-- The first line of a FAR region that lies outside the partition's region, or in a staging region (R150, R211). -/
def farBad (s : State) (g : Image) (x : LTile × Nat) : Option Nat :=
  let st := g.tileOf x.1 / 32
  let first := bitsOf (g.mmpWord x.1 x.2 2) 0 30
  let n := g.farLines x.1 x.2
  let a := s.load.lines.getD st 0
  if getF s (HBM_LINES (loadPart s) st) < first + n then some (max first (getF s (HBM_LINES (loadPart s) st)))
  else if a < first + n ∧ first < a + stageLines s.load.len then some (max first a)
  else none

/-- A range of bytes of a stack, as an offset in the partition's region, lies in the FAR regions of the image. -/
def farCovered (g : Image) (die first n : Nat) : Bool :=
  g.ports.any (fun x => g.mmpBind x.1 x.2 == 2 && g.tileOf x.1 / 32 == die
    && decide (bitsOf (g.mmpWord x.1 x.2 2) 0 30 * 64 ≤ first)
    && decide (first + n ≤ (bitsOf (g.mmpWord x.1 x.2 2) 0 30 + g.farLines x.1 x.2) * 64))

/-- Initial content outside the depth of its instance: the address (0x060A). -/
def contentBad (g : Image) (i : Item) : Option Nat :=
  match i with
  | .far _ die addr len => if farCovered g die addr len then none else some addr
  | .farFill _ die line count _ => if farCovered g die (line * 64) (count * 64) then none else some (line * 64)
  | _ => none

/-- Byte `a` of a logical tile's on-die memory lies within the depth of an instance of a bound port. -/
def onDieCovered (g : Image) (t : LTile) (a : Nat) : Bool :=
  (List.range 32).any (fun p =>
    let lo := bitsOf (g.mmpWord t p 2) 0 7 * 32768
    g.mmpBind t p == 1 && decide (lo ≤ a) && decide (a < lo + ceilDiv (g.mmpDepth t p * g.mmpSw t p) 8))

/-- On-die contents outside the depth of every instance: the first such byte. -/
def onDieBeyond (g : Image) (t : LTile) : Option Nat := (g.listed t.lt 0x3000000 0x300000 1).find? (fun a => !onDieCovered g t a)

def checkMemory (s : State) (g : Image) : Option LoadErr :=
  let ps := g.tiles.flatMap (fun t => (List.range 32).map (fun p => (t, p)))
  let perr := fun (check detail : Nat) (x : LTile × Nat) => badLoad check g.ldev detail (tileLoc s g x.1)
  let ms := g.words.filter isMmp
  let eachM := fun (check : Nat) (ok : IWord → Bool) (detail : IWord → Nat) =>
    eachOk ms ok (fun w => badLoad check g.ldev (detail w) (wordLoc s g w))
  firstErr [eachOk ps (fun x => mmpOk g x.1 x.2) (fun x => perr 0x0601 x.2 x),
    eachM 0x0602 (fun w => g.mmpBind w.t (portOf w.w) != 0 && g.mmpOwner w.t (portOf w.w) == w.k) (fun w => portOf w.w),
    eachM 0x0603 (bitInPort g) (fun w => bitIdxOf w.w),
    eachM 0x0604 (fun w => opcOf w.w != opMpg || !seqClash g w) (fun w => seqOf w.w),
    eachM 0x0605 (fun w => opcOf w.w != opMpr || (onEntry g w opMpg true).isEmpty) (fun w => seqOf w.w),
    eachM 0x0606 (fun w => opcOf w.w != opMpr || readsPaired g w) (fun w => seqOf w.w),
    eachM 0x0607 (fun w => !(opcOf w.w == opMpg && selOf w.w && bitOf (g.mmpWord w.t (portOf w.w) 0) 2)) (fun w => portOf w.w),
    eachOk g.ports (fun x => !g.ports.any (fun y => x != y && badShare g x y)) (fun x => perr 0x0608 x.2 x),
    eachOk g.ports (fun x => g.mmpBind x.1 x.2 != 2 || (farBad s g x).isNone) (fun x => perr 0x0609 ((farBad s g x).getD 0) x),
    (g.items.findSome? (contentBad g)).map (fun a => badLoad 0x060A g.ldev a 0),
    eachOk g.tiles (fun t => (onDieBeyond g t).isNone) (fun t => badLoad 0x060A g.ldev ((onDieBeyond g t).getD 0) (tileLoc s g t))]

/-! ## 0x0701, 0x0702: bindings -/

/-- A queue binding meets R342 and R349: fields, direction, one binding for a port and for a queue, queues of the partition. -/
def qbindOk (s : State) (g : Image) (x : Nat × Nat) : Bool :=
  let v := x.2
  let q := qbQueue v
  let inbound := decide (q < 16384)
  let exists_ := match g.ltile (qbLt v) with | some t => decide (qbOwner v < t.n) | none => false
  exists_ && !bitOf v 7 && bitsOf v 43 21 == 0
    && (if inbound then !bitOf v 30 && decide (q + qbCount v ≤ 16383) else qbCount v == 0)
    && (List.range (qbCount v + 1)).all (fun i => getF s (Q_PARTITION (q + i)) == loadPart s)
    && (qbinds g.b).all (fun y => y.1 == x.1 || ((qbLt y.2 != qbLt v || qbPort y.2 != qbPort v)
      && (decide (q + qbCount v < qbQueue y.2) || decide (qbQueue y.2 + qbCount y.2 < q))))

/-- A message word's port is bound and owned by its logical cluster. -/
def msgPortOk (g : Image) (w : IWord) : Bool :=
  decide (portOf w.w < 16) && (qbinds g.b).any (fun e => qbLt e.2 == w.t.lt && qbPort e.2 == portOf w.w && qbOwner e.2 == w.k)

/-- Target-bit bindings (R409): byte offset and value; fields. -/
def tbinds (b : Nat → Byte) : List (Nat × Nat) := tableOf b (sectTbit b)
def tbIn (v : Nat) : Bool := bitOf v 0
def tbFirst (v : Nat) : Nat := bitsOf v 1 12
def tbCount (v : Nat) : Nat := bitsOf v 13 12 + 1
def tbLt (v : Nat) : Nat := bitsOf v 25 7
def tbK (v : Nat) : Nat := bitsOf v 32 4

/-- The owner of a target bit belongs to another partition. -/
def boundElsewhere (s : State) (inbound : Bool) (i : Nat) : Bool :=
  let o := mget (if inbound then s.eng.tbIn else s.eng.tbOut) 0 i
  o != 0 && getF s (TILE_PARTITION ((o - 1) / 2 / 16)) != loadPart s

def tbindOk (s : State) (g : Image) (x : Nat × Nat) : Bool :=
  let v := x.2
  decide (tbFirst v + tbCount v ≤ 4096) && decide (v < 2 ^ 36) && lcExists g.b g.ldev (tbLt v * 16 + tbK v)
    && (List.range (tbCount v)).all (fun i => !boundElsewhere s (tbIn v) (tbFirst v + i))
    && (tbinds g.b).all (fun y => y.1 == x.1 || tbIn y.2 != tbIn v || decide (tbFirst y.2 + tbCount y.2 ≤ tbFirst v)
        || decide (tbFirst v + tbCount v ≤ tbFirst y.2))

/-- The bit that 0x0702 names for an entry: its first one beyond 4,095 or bound twice, or FIRST. -/
def tbindBit (s : State) (g : Image) (x : Nat × Nat) : Nat :=
  let v := x.2
  (((List.range (tbCount v)).map (tbFirst v + ·)).find? (fun i => decide (4096 ≤ i) || boundElsewhere s (tbIn v) i
    || (tbinds g.b).any (fun y => y.1 != x.1 && tbIn y.2 == tbIn v && decide (tbFirst y.2 ≤ i) && decide (i < tbFirst y.2 + tbCount y.2)))).getD (tbFirst v)

/-- A target word's bit is bound to its logical cluster. -/
def targetOk (g : Image) (w : IWord) : Bool :=
  let i := portOf w.w * 256 + bitIdxOf w.w
  decide (portOf w.w < 16) && (tbinds g.b).any (fun e => tbIn e.2 == (opcOf w.w == opTpi) && decide (tbFirst e.2 ≤ i)
    && decide (i < tbFirst e.2 + tbCount e.2) && tbLt e.2 == w.t.lt && tbK e.2 == w.k)

def checkBindings (s : State) (g : Image) : Option LoadErr :=
  firstErr [eachOk (qbinds g.b) (qbindOk s g) (fun x => badLoad 0x0701 g.ldev (qbPort x.2) (namedLoc s g (qbLt x.2 * 16 + qbOwner x.2) 0 0)),
    eachOk (g.words.filter isMsg) (msgPortOk g) (fun w => badLoad 0x0701 g.ldev (portOf w.w) (wordLoc s g w)),
    eachOk (tbinds g.b) (tbindOk s g) (fun x => badLoad 0x0702 g.ldev (tbindBit s g x) (namedLoc s g (tbLt x.2 * 16 + tbK x.2) 0 0)),
    eachOk (g.words.filter (isOp [opTpo, opTpi])) (targetOk g)
      (fun w => badLoad 0x0702 g.ldev (portOf w.w * 256 + bitIdxOf w.w) (wordLoc s g w))]

/-! ## 0x0801, 0x0802: clocks and capture -/

/-- A clock entry meets R122 and R123. -/
def clockOk (g : Image) (c : Nat) : Bool :=
  let v := clockWord g.b c
  match v % 4 with
  | 0 => v == 0
  | 1 => decide (v < 2 ^ 34) && decide (bitsOf v 18 16 ≤ bitsOf v 2 16)
  | 2 => bitsOf v 2 32 == 0 && bitsOf v 40 24 == 0 && decide (v / 2 ^ 64 < 2 ^ (bitsOf v 34 6 + 1))
  | _ => bitsOf v 2 62 == 0 && bitsOf v 92 36 == 0 && lcExists g.b g.ldev (bitsOf v 64 11) && (!g.fold || decide (bitsOf v 75 16 ≤ 0x7FFF))

/-- The word that a capture entry names. -/
def capWord (g : Image) (v : Nat) : Option IWord :=
  match g.ltile (capLt v) with
  | none => none
  | some t => (g.wordsOf t).find? (fun w => w.k == bitsOf v 7 4 && w.bp == bitsOf v 11 6 && w.step == bitsOf v 17 11)

/-- The other partitions' capture entries. -/
def otherCaps (s : State) : List CapEntry := (s.acq.entries.filter (fun e => e.1 != loadPart s)).flatMap Prod.snd

/-- A capture entry precedes another in the order of a folded load: unfolded die, then POS (R369). -/
def capBefore (g : Image) (x y : Nat) : Bool :=
  decide (capDie g false x < capDie g false y) || (capDie g false x == capDie g false y && decide (capPos x < capPos y))

/-- The physical position of a VECTOR entry: as given unfolded; folded, its rank among the entries of the image on its physical die. -/
def capPhys (g : Image) (v : Nat) : Nat :=
  if g.fold then ((vectorsOn g true (capDie g true v)).filter (fun y => capBefore g y.2 v)).length else capPos v

/-- A capture entry meets R369. -/
def capEntryOk (s : State) (g : Image) (x : Nat × Nat) : Bool :=
  let v := x.2
  let l := (tableOf g.b (sectCap g.b)).filter (fun y => y.1 != x.1)
  (match capWord g v with | some w => capOf w.w && hasResult w.w | none => false)
    && !l.any (fun y => bitsOf y.2 0 28 == bitsOf v 0 28)
    && (if capTrigger v then
          !l.any (fun y => capTrigger y.2 && bitsOf y.2 30 6 == bitsOf v 30 6)
            && !(otherCaps s).any (fun e => e.trigger && e.pos == bitsOf v 30 6)
        else
          !l.any (fun y => !capTrigger y.2 && capDie g false y.2 == capDie g false v && capPos y.2 == capPos v)
            && !(otherCaps s).any (fun e => !e.trigger && e.die == capDie g g.fold v && e.pos == capPhys g v))

/-- The index of an entry of the capture map. -/
def capIndex (g : Image) (x : Nat × Nat) : Nat := (x.1 - sectCap g.b - 4) / 8

/-- The rules of R369, under 0x0309 in a folded load and 0x0802 otherwise. -/
def checkCapture (s : State) (g : Image) (check : Nat) : Option LoadErr :=
  let caps := tableOf g.b (sectCap g.b)
  firstErr [eachOk (List.range 4) (fun d => g.fold || decide ((vectorsOn g false d).length ≤ 16384))
      (fun d => badLoad check g.ldev (vectorsOn g false d).length (dieLoc s d)),
    eachOk caps (capEntryOk s g) (fun x => badLoad check g.ldev (capIndex g x) (capLoc s g x.2)),
    eachWord s g check (fun w => !capOf w.w || caps.any (fun x => capWord g x.2 == some w)) (fun _ => caps.length)]

def checkClocks (s : State) (g : Image) : Option LoadErr :=
  eachOk (List.range 32) (clockOk g) (fun c => badLoad 0x0801 g.ldev c
    (if clockWord g.b c % 4 = 3 then namedLoc s g (bitsOf (clockWord g.b c) 64 11) 0 0 else 0))

/-! ## All checks -/

/-- Every check of R196 on the staged image; a program register's L and block count are in range by their widths (0x0401). -/
def loaderChecks (s : State) (g : Image) : Option LoadErr :=
  List.findSome? (fun c => c g) [fun g => check0101 g.b, check0102 s, check0103 s, check0104 s, check0105 s, check0106 s, check0107 s,
    check0201 s, check0202 s, checkFolded s, fun g => if g.fold then checkCapture s g 0x0309 else none, checkPrograms s, checkRoutes s,
    checkMemory s, checkBindings s, checkClocks s, fun g => if g.fold then none else checkCapture s g 0x0802]

end Sys2Proof.Machine
end

