-- ==== Sys2Proof/Machine/LoadWrite.lean ====
section
/-!
DEFINITION. The write phase of a load (R185, R188, R189, R204 to R210, R226, R349, R369) and the links across partition boundaries
(R229, R231, R425).
-/
namespace Sys2Proof.Machine
open Sys2Proof Reg

/-! ## Clearing a tile (R31, R205, R509) -/

/-- The entries of a table whose numbers lie in [lo, lo + n) are taken out. -/
def dropRange {α : Type} (m : Map α) (lo n : Nat) : Map α := mdrop m (fun k => decide (lo ≤ k) && decide (k < lo + n))

/-- A target bit's owner stands on a tile. -/
def ownedBy (t : Nat) (o : Nat) : Bool := o != 0 && (o - 1) / 2 / 16 == t

/-- Every array, table, binding and configuration word of tile `t` is cleared. -/
def clearTile (s : State) (t : Nat) : State :=
  let e := s.eng
  let pc := t * 16
  let e1 := { e with
    imem := dropRange e.imem (pc * 131072) (16 * 131072), imemErr := dropRange e.imemErr (pc * 131072) (16 * 131072),
    capBit := dropRange e.capBit (pc * 131072) (16 * 131072), lc := dropRange e.lc (pc * 2) 32, slot := dropRange e.slot (pc * 2048) (16 * 2048),
    recv := dropRange e.recv (pc * 448) (16 * 448), feeder := dropRange e.feeder (pc * 448) (16 * 448),
    substitute := dropRange e.substitute (pc * 448) (16 * 448), cur := dropRange e.cur (pc * 65536) (16 * 65536),
    nxt := dropRange e.nxt (pc * 65536) (16 * 65536), half := dropRange e.half (pc * 2) 32, predict := dropRange e.predict (pc * 64) (16 * 64),
    prog := dropRange e.prog (pc * 2) 32, block := dropRange e.block (pc * 64) (16 * 64), sendMap := dropRange e.sendMap (pc * 4096) (16 * 4096),
    route := dropRange e.route (t * 4096) 4096, detached := dropRange e.detached (t * 4096) 4096, credit := dropRange e.credit (t * 4096) 4096,
    mem := zeroBytes e.mem (t * 3145728) 3145728, memErr := dropRange e.memErr (t * 393216) 393216, mmp := clearMmps e.mmp (fun k => k / 32 == t),
    msg := dropRange e.msg (t * 16) 16, fold := dropRange e.fold t 1, assigned := dropRange e.assigned t 1,
    tbOut := e.tbOut.filter (fun x => !ownedBy t x.2), tbIn := e.tbIn.filter (fun x => !ownedBy t x.2) }
  let r1 := dropRange s.regs (mmpBase t 0 * 8) (32 * 32 * 8)
  { s with eng := e1, regs := (List.range 16).foldl (fun m p => dropRange m (portBase (t * 16 + p) * 8) 64) r1 }

def clearTiles (s : State) : List Nat → State
  | [] => s
  | t :: r => clearTiles (clearTile s t) r

/-- The tiles of a partition. -/
def partTiles (s : State) (p : Nat) : List Nat := (List.range 128).filter (fun t => getF s (TILE_PARTITION t) == p)

/-- Fields of TILE_STATUS change; the tile entering or leaving reset, gating or fencing raises TILE_STATE (R489). -/
def tileStatus (s : State) (t : Nat) (fs : List (Field × Nat)) : State :=
  let s1 := setFs s fs
  if [TILE_IN_RESET t, TILE_GATED t, TILE_FENCED t].any (fun f => getF s f != getF s1 f) then raiseEv s1 (tileEv t 3) else s1

/-- Put a status on a list of tiles: LOADED and IN_RESET. -/
def markTiles (s : State) (loaded inReset : Bool) : List Nat → State
  | [] => s
  | t :: r => markTiles (tileStatus s t [(TILE_LOADED t, loaded.toNat), (TILE_IN_RESET t, inReset.toNat)]) loaded inReset r

/-- Tiles are gated: fenced, and they lose their arrays (R31, R508). -/
def gateTiles (s : State) : List Nat → State
  | [] => s
  | t :: r => gateTiles (tileStatus (clearTile s t) t [(TILE_GATED t, 1), (TILE_IN_RESET t, 1), (TILE_LOADED t, 0), (TILE_FENCED t, 1)]) r

/-! ## Arrays of a logical tile -/

def setEng (s : State) (f : Engine → Engine) : State := { s with eng := f s.eng }

/-- The instruction words. A folded logical cluster has no word for a step of 1,024 or more (R179), which it never runs. -/
def writeWordsOf (s : State) (g : Image) : List IWord → State
  | [] => s
  | w :: r =>
    let half := g.halfOf w.t
    let s1 := if g.fold ∧ 1024 ≤ w.step then s
      else writeImem s (wordKey g.fold (g.pcOf s w.t w.k) half w.bp w.step) (if half then halfBWord w.w else w.w)
    writeWordsOf s1 g r

/-- Units of a logical tile's contents that the halves of a folded tile keep apart: those below `n` (R189). -/
def Image.own (g : Image) (n : Nat) (l : List Nat) : List Nat := if g.fold then l.filter (fun i => decide (i < n)) else l

/-- Bit `j` of byte `i` of the initial state is 1: the number of the state bit. -/
def stateBitsOf (s : State) (g : Image) (t : LTile) : List Nat :=
  ((g.listed t.lt 0x2000000 0x20000 1).filter (fun i => !g.fold || decide (i % 8192 < 4096))).flatMap (fun i =>
    let v := g.num t.lt (0x2000000 + i) 1
    ((List.range 8).filter (bitOf v)).map (fun j =>
      g.pcOf s t (i / 8192) * 65536 + i % 8192 * 8 + j + (if g.halfOf t then 0x8000 else 0)))

/-- Program registers, block tables and the logical cluster of each half. -/
def writeProgram (s : State) (g : Image) (t : LTile) (k : Nat) : State :=
  let half := g.halfOf t
  let pc := g.pcOf s t k
  let h := halfKey pc half
  let blocks := (List.range (if g.fold then 32 else 64)).foldl (fun m e =>
    let v := g.block t k e
    mset m 0 (blockKey pc half e) (if half then halfBBlock v else v)) s.eng.block
  setEng s (fun e => { e with prog := mset e.prog 0 h (BitVec.ofNat 32 (g.prog t k)), lc := mset e.lc 0 h (t.lt * 16 + k), block := blocks })

/-- The send map of a logical cluster. -/
def writeSends (s : State) (g : Image) (t : LTile) (k : Nat) : State :=
  let half := g.halfOf t
  let base := halfKey (g.pcOf s t k) half * 2048
  let m := (List.range (if g.fold then 1024 else 2048)).foldl (fun m step =>
    mset m 0 (base + step) (BitVec.ofNat 12 (g.send t k step + (if half then 2048 else 0)))) s.eng.sendMap
  setEng s (fun e => { e with sendMap := m })

/-- The route table of a logical tile; an entry listed as ROUTE_OUT is DETACHED until it is linked (R425). -/
def writeRoutes (s : State) (g : Image) (t : LTile) : List Nat → State
  | [] => s
  | e :: r =>
    let half := g.halfOf t
    let key := g.tileOf t * 4096 + e + (if half then 2048 else 0)
    let out := routeOut g t e
    let v := if out then BitVec.ofNat 32 (2 ^ 30) else physRoute g half (g.route t e)
    writeRoutes (setEng s (fun x => { x with route := mset x.route 0 key v, detached := mset x.detached false key out })) g t r

/-- The receive controls of a logical tile: feeders, and SUBSTITUTE for a RECV_IN slot until it is linked. -/
def writeControls (s : State) (g : Image) (t : LTile) : List (Nat × Nat) → State
  | [] => s
  | (k, n) :: r =>
    let key := g.pcOf s t k * 448 + n + (if g.halfOf t then 224 else 0)
    writeControls (setEng s (fun e => { e with feeder := mset e.feeder none key (some (physFeeder g (g.recv t k n))) })) g t r

def writeSubstitutes (s : State) (g : Image) (t : LTile) : List (Nat × Nat) → State
  | [] => s
  | (_, v) :: r =>
    let key := g.pcOf s t (beLc v % 16) * 448 + beIndex v + (if g.halfOf t then 224 else 0)
    let s1 := if beKind v = 3 ∧ beLc v / 16 = t.lt then
        setEng s (fun e => { e with feeder := mset e.feeder none key none, substitute := mset e.substitute false key true })
      else s
    writeSubstitutes s1 g t r

/-- The on-die model memory of a logical tile. -/
def writeOnDie (s : State) (g : Image) (t : LTile) : State :=
  let base := g.tileOf t * 3145728 + (if g.halfOf t then 48 * 32768 else 0)
  let m := (g.own (48 * 32768) (g.listed t.lt 0x3000000 0x300000 1)).foldl (fun m i =>
    wrByte m (base + i) (BitVec.ofNat 8 (g.num t.lt (0x3000000 + i) 1))) s.eng.mem
  setEng s (fun e => { e with mem := m })

/-- The configuration of a port (R152, R189, R208). -/
def writePort (s : State) (g : Image) (t : LTile) (p : Nat) : State :=
  let half := g.halfOf t
  let tile := g.tileOf t
  let q := if half then p + 16 else p
  let w0 := g.mmpWord t p 0
  let w2 := g.mmpWord t p 2
  let cfg2 := if g.mmpBind t p = 2 then w2 + getF s (HBM_BASE (loadPart s) (tile / 32)) else w2 + (if half then 48 else 0)
  setFs s [(MMP_BIND tile q, g.mmpBind t p), (MMP_RO tile q, bitsOf w0 2 1), (MMP_WMASK tile q, bitsOf w0 3 1),
    (MMP_OOR_POLICY tile q, bitsOf w0 4 1), (MMP_OWNER tile q, g.pcOf s t (g.mmpOwner t p) % 16), (MMP_OWNER_HALF tile q, half.toNat),
    (MMP_AWIDTH_M1 tile q, bitsOf w0 10 6), (MMP_DWIDTH_M1 tile q, bitsOf w0 16 8), (MMP_DEPTH_M1 tile q, g.mmpWord t p 1),
    (MMP_CFG2 tile q, cfg2)]

/-- Everything of one logical tile. -/
def writeTile (s : State) (g : Image) (t : LTile) : State :=
  let tile := g.tileOf t
  let s1 := setEng s (fun e => { e with fold := mset e.fold false tile g.fold })
  let s2 := writeWordsOf s1 g (g.wordsOf t)
  let bits := stateBitsOf s2 g t
  let s3 := setEng s2 (fun e => { e with cur := bits.foldl (fun m k => mset m false k true) e.cur,
                                         nxt := bits.foldl (fun m k => mset m false k true) e.nxt })
  let s4 := (List.range t.n).foldl (fun a k => writeSends (writeProgram a g t k) g t k) s3
  let s5 := writeSubstitutes (writeControls (writeRoutes s4 g t (g.own 2048 (g.entries t))) g t ((g.controls t).filter (fun x => !g.fold || decide (x.2 < 224)))) g t (boundEntries g.b)
  (List.range (if g.fold then 16 else 32)).foldl (fun a p => if g.mmpBind t p = 0 then a else writePort a g t p) (writeOnDie s5 g t)

def writeTiles (s : State) (g : Image) : List LTile → State
  | [] => s
  | t :: r => writeTiles (writeTile s g t) g r

/-! ## Section tables -/

/-- Message ports (R349). -/
def writeBindings (s : State) (g : Image) : List (Nat × Nat) → State
  | [] => s
  | (_, v) :: r =>
    match g.ltile (qbLt v) with
    | none => writeBindings s g r
    | some t =>
      let half := g.halfOf t
      let i := g.tileOf t * 16 + qbPort v + (if half then 8 else 0)
      let q := qbQueue v
      let s1 := setFs s [(P_BOUND i, 1), (P_DIR i, (decide (16384 ≤ q)).toNat), (P_POLICY i, bitsOf v 30 1), (P_QCOUNT_M1 i, qbCount v),
        (P_QBASE i, q), (P_OWNER i, g.pcOf s t (qbOwner v) % 16), (P_OWNER_HALF i, half.toNat)]
      writeBindings ((List.range (qbCount v + 1)).foldl (fun a j => setF a (Q_WIDTH_M1 (q + j)) (qbWidth v)) s1) g r

/-- Target bits (R409). -/
def writeTbits (s : State) (g : Image) : List (Nat × Nat) → State
  | [] => s
  | (_, v) :: r =>
    match g.ltile (tbLt v) with
    | none => writeTbits s g r
    | some t =>
      let owner := 1 + halfKey (g.pcOf s t (tbK v)) (g.halfOf t)
      let put := fun (m : Map Nat) => (List.range (tbCount v)).foldl (fun m i => mset m 0 (tbFirst v + i) owner) m
      writeTbits (setEng s (fun e => if tbIn v then { e with tbIn := put e.tbIn } else { e with tbOut := put e.tbOut })) g r

/-- An entry of the clock schedule in physical form: the SRC_LC field of a STATE entry holds the physical cluster in the device, and
SRC_SADDR the state bit of that cluster, the half included (R182, R189). -/
def physClock (s : State) (g : Image) (v : Nat) : Nat :=
  if v % 4 ≠ 3 then v
  else
    match g.ltile (bitsOf v 64 11 / 16) with
    | none => v
    | some t =>
      let pc := g.pcOf s t (bitsOf v 64 11 % 16)
      let a := bitsOf v 75 16 + (if g.halfOf t then 0x8000 else 0)
      v % 2 ^ 64 + pc * 2 ^ 64 + a % 2 ^ 16 * 2 ^ 75 + v / 2 ^ 91 * 2 ^ 91

/-- The clock schedule (R122). -/
def writeSched (s : State) (g : Image) : State :=
  { s with cyc := { s.cyc with sched := (List.range 32).foldl (fun m c => mset m 0 c (BitVec.ofNat 128 (physClock s g (clockWord g.b c)))) [] } }

/-- The capture map of the partition. -/
def capEntries (s : State) (g : Image) : List CapEntry :=
  (tableOf g.b (sectCap g.b)).filterMap (fun x =>
    let v := x.2
    match g.ltile (capLt v) with
    | none => none
    | some t =>
      let d := g.tileOf t / 32
      let pos := if capTrigger v then bitsOf v 30 6 else capPhys g v
      some { raw := BitVec.ofNat 64 (bitsOf v 0 30 + pos * 2 ^ 30 + bitsOf v 44 18 * 2 ^ 44 + d * 2 ^ 62), trigger := capTrigger v, die := d,
             pos := pos, word := wordKey g.fold (g.pcOf s t (bitsOf v 7 4)) (g.halfOf t) (bitsOf v 11 6) (bitsOf v 17 11) })

/-! ## FAR memory and the fabric (R209, R210) -/

/-- Zero the FAR regions of the bound ports. -/
def zeroFar (s : State) (g : Image) : List (LTile × Nat) → State
  | [] => s
  | (t, p) :: r =>
    let st := g.tileOf t / 32
    let first := getF s (HBM_BASE (loadPart s) st) + bitsOf (g.mmpWord t p 2) 0 30
    let n := g.farLines t p
    let s1 := if g.mmpBind t p ≠ 2 then s
      else stampRange { s with hbm := zeroBytes s.hbm (hbmAddr st (first * 64)) (n * 64),
                               eng := { s.eng with memErr := dropRange s.eng.memErr (farLineKey st first) n } }
        st first n (keyOfLine s (loadPart s) st first)
    zeroFar s1 g r

/-- FAR frames and FAR_FILL commands, in stream order. -/
def writeFar (s : State) (g : Image) : List Item → State
  | [] => s
  | .far src die addr len :: r =>
    writeFar (dmaWrite s (loadPart s) die (getF s (HBM_BASE (loadPart s) die) * 64 + addr) (listAt g.b (src + 16) len)) g r
  | .farFill _ die line count pat :: r =>
    let first := getF s (HBM_BASE (loadPart s) die) + line
    let s1 := stampRange { s with hbm := fillWords s.hbm (hbmAddr die (first * 64)) pat (count * 8) } die first count
      (keyOfLine s (loadPart s) die first)
    writeFar s1 g r
  | _ :: r => writeFar s g r

/-- The fabric is configured from the payloads in the scratchpad when the stream carries FABRIC frames. -/
def writeFabric (s : State) (g : Image) : State :=
  if fabricBytes g = 0 then s
  else releaseFabric { s with taf := { s.taf with cfg := fabricConfig s.sp g.items fabricBank [] } }

/-- The whole write phase, for the tiles that the load covers. -/
def writeImage (s : State) (g : Image) : State :=
  let s1 := clearTiles s (g.tiles.map g.tileOf)
  let s2 := writeTbits (writeBindings (writeTiles s1 g g.tiles) g (qbinds g.b)) g (tbinds g.b)
  let s3 := if loadPartial s2 then s2 else writeSched s2 g
  let s4 := { s3 with acq := { s3.acq with entries := mset s3.acq.entries [] (loadPart s3) (capEntries s3 g) } }
  writeFabric (writeFar (zeroFar s4 g g.ports) g g.items) g

/-- What the release will record (R231). -/
def identOf (s : State) (g : Image) : ImageIdent :=
  { image := imgId g.b, map := imgMap g.b, level := imgLevel g.b, isSealed := imgSealed g.b, rights := imgRights g.b, keySlot := s.load.keySlot,
    ldev := g.ldev, boundary := (boundEntries g.b).map (fun e => BitVec.ofNat 64 e.2), tiles := g.tiles.map g.tileOf }

/-! ## Images of partitions -/

/-- Partition `p` holds no image any more. -/
def dropImage (s : State) (p : Nat) : State :=
  let s1 := setFs s [(IMAGE_ID_LO p, 0), (IMAGE_ID_HI p, 0), (MAP_ID p, 0), (SEALED p, 0), (SEAL_RIGHTS p, 0), (SEAL_KEY_SLOT p, 0)]
  { s1 with sec := { s1.sec with boundary := mset s1.sec.boundary [] p [] }, sys := { s1.sys with linkLevel := mset s1.sys.linkLevel none p none },
            acq := { s1.acq with entries := mset s1.acq.entries [] p [] } }

/-- Partition `p` holds an image (R226 step 7, R231 step 4, R423). -/
def recordImage (s : State) (p : Nat) (x : ImageIdent) : State :=
  let s1 := setFs s [(IMAGE_ID_LO p, x.image % 2 ^ 64), (IMAGE_ID_HI p, x.image / 2 ^ 64), (MAP_ID p, x.map), (SEALED p, x.isSealed.toNat),
    (SEAL_RIGHTS p, x.rights), (SEAL_KEY_SLOT p, x.keySlot)]
  { s1 with sys := { s1.sys with linkLevel := mset s1.sys.linkLevel none p (some x.level) },
            sec := { s1.sec with boundary := mset s1.sec.boundary [] p x.boundary,
                                 snapKey := mset s1.sec.snapKey 0 p (snapNumber (mget s1.sec.root 0 x.keySlot) x.image x.ldev) } }

/-- Tiles leave reset with their sequencers idle. -/
def startTiles (s : State) : List Nat → State
  | [] => s
  | t :: r => startTiles (setEng (tileStatus s t [(TILE_LOADED t, 1), (TILE_IN_RESET t, 0)]) (fun e => { e with assigned := mset e.assigned false t true })) r

/-! ## Crossing routes (R229, R231, R425) -/

/-- Route entries of other partitions that feed a slot of partition `p` become DETACHED. -/
def detachInto (s : State) (p : Nat) : State :=
  let hit := fun (x : Nat × BitVec 32) =>
    rtType x.2 == 1 && rtDev x.2 == getF s DEV_ID && getF s (TILE_PARTITION (rtDie x.2 * 32 + rtTile x.2)) == p
      && getF s (TILE_PARTITION (x.1 / 4096)) != p
  setEng s (fun e => { e with detached := ((e.route.filter hit).map Prod.fst).foldl (fun m k => mset m false k true) e.detached })

/-- Receive slots of other partitions that partition `p` feeds become SUBSTITUTE and empty. -/
def substituteFrom (s : State) (p : Nat) : State :=
  let hit := fun (x : Nat × Option Feeder) =>
    match x.2 with
    | none => false
    | some f => f.dev.toNat == getF s DEV_ID && getF s (TILE_PARTITION (f.die.toNat * 32 + f.tile.toNat)) == p
        && getF s (TILE_PARTITION (x.1 / 448 / 16)) != p
  let keys := (s.eng.feeder.filter hit).map Prod.fst
  setEng s (fun e => { e with substitute := keys.foldl (fun m k => mset m false k true) e.substitute, recv := keys.foldl mdel e.recv })

/-- The tiles of partition `p` enter reset (R229, R472). -/
def enterReset (s : State) (p : Nat) : State :=
  let ts := partTiles s p
  let s1 := endTileRequests s ts p rsBusy
  let s2 := { s1 with ctl := { s1.ctl with forced := s1.ctl.forced.filter (fun f => f.part != p) } }
  let s3 := setEng (markTiles s2 false true ts) (fun e => { e with assigned := ts.foldl mdel e.assigned, half := ts.foldl (fun m t => dropRange m (t * 32) 32) e.half })
  substituteFrom (detachInto s3 p) p

/-- The route entry that a ROUTE_OUT names, and the receive slot that a RECV_IN names, of partition `p`. -/
def outKey (s : State) (p v : Nat) : Option Nat :=
  (findLc s p (beLc v)).map (fun k => k / 2 / 16 * 4096 + beIndex v + (if k % 2 = 1 then 2048 else 0))
def inKey (s : State) (p v : Nat) : Option Nat :=
  (findLc s p (beLc v)).map (fun k => k / 2 * 448 + beIndex v + (if k % 2 = 1 then 224 else 0))

/-- Both ends of a crossing route are linked: the entry names the slot, the slot its feeder, with five credits and no value. -/
def linkEnds (s : State) (a c : Nat) : State :=
  let pc := c / 448
  let v := BitVec.ofNat 32 (2 ^ 30 + getF s DEV_ID * 2 ^ 20 + pc / 512 * 2 ^ 18 + pc / 16 % 32 * 2 ^ 13 + pc % 16 * 2 ^ 9 + c % 448)
  let f : Feeder := { dev := BitVec.ofNat 9 (getF s DEV_ID), die := BitVec.ofNat 2 (a / 4096 / 32), tile := BitVec.ofNat 5 (a / 4096 % 32),
                      entry := BitVec.ofNat 12 (a % 4096) }
  setEng s (fun e => { e with route := mset e.route 0 a v, detached := mset e.detached false a false, credit := mset e.credit 5 a 5,
                              feeder := mset e.feeder none c (some f), substitute := mset e.substitute false c false, recv := mdel e.recv c })

/-- The RECV_IN with a BID in another partition's image. -/
def partnerOf (s : State) (q bid : Nat) : Option (Nat × Nat) :=
  ((imageParts s).filter (· != q)).findSome? (fun r =>
    ((mget s.sec.boundary [] r).find? (fun e => beKind e.toNat == 3 && beBid e.toNat == bid)).map (fun e => (r, e.toNat)))

/-- Link the ROUTE_OUT entries of partition `q` whose route touches partition `p`. -/
def linkOuts (s : State) (p q : Nat) : List (BitVec 64) → State
  | [] => s
  | e :: r =>
    let v := e.toNat
    let s1 :=
      if beKind v ≠ 2 then s
      else
        match outKey s q v, partnerOf s q (beBid v) with
        | some a, some (o, w) =>
          if q = p ∨ o = p then (match inKey s o w with | some c => linkEnds s a c | none => s) else s
        | _, _ => s
    linkOuts s1 p q r

/-- Link every crossing route that touches partition `p`. -/
def linkPartition (s : State) (p : Nat) : State :=
  (imageParts s).foldl (fun a q => linkOuts a p q (mget a.sec.boundary [] q)) s

/-- The tiles' own route entries have five credits. -/
def resetCredits (s : State) (ts : List Nat) : State :=
  setEng s (fun e => { e with credit := ts.foldl (fun m t => dropRange m (t * 4096) 4096) e.credit })

end Sys2Proof.Machine
end

