-- ==== Sys2Proof/Machine/Load.lean ====
section
/-!
DEFINITION. Loading images (R201 to R234): IMAGE_LOAD and the phases of a load, partial reload, release, abort and unload.
-/
namespace Sys2Proof.Machine
open Sys2Proof Reg

/-! ## IMAGE_LOAD (R219 to R222, R226 step 1) -/

def ilPartial (q : Request) : Bool := bitOf (par q 0 1) 1

/-- No requester other than Mule owns one of the scratchpad banks 48 to 63 (R213): they belong to MULE or to NONE. -/
def banksFree (s : State) : Bool :=
  (List.range 16).all (fun i => getF s (SP_BANK_OWNER (48 + i)) == 0 || getF s (SP_BANK_OWNER (48 + i)) == 3)

/-- A full load begins: every image is unloaded, every tile held in reset, every output at high impedance. -/
def beginFull (s : State) : State :=
  let s1 := endAcquisition (endRequests s)
  let s2 := setRunState { s1 with ctl := { s1.ctl with forced := [] } } stIdle
  let s3 := (List.range 16).foldl dropImage s2
  let s4 := setEng (markTiles s3 false true (List.range 128)) (fun e => { e with assigned := [], half := [] })
  forgetReset (clearOutputs { s4 with cyc := { s4.cyc with faulted := false, late := none, waiting := [], stalled := false, dieDone := [], stopc := none,
                                                           maskStop := false, stopReq := false, ready := false } })

/-- The first line of a staging region that lies outside the partition's region. -/
def stageOutside (s : State) : Option LoadErr :=
  let n := stageLines s.load.len
  (List.range 4).findSome? (fun st =>
    let a := s.load.lines.getD st 0
    let m := getF s (HBM_LINES (loadPart s) st)
    if n = 0 ∨ a + n ≤ m then none else some (headErr 0x0609 (max a m)))

/-- COMMIT_CYCLE lies ahead (R230). -/
def commitAhead (s : State) : Option LoadErr :=
  if loadPartial s ∧ s.load.commitAt ∧ s.load.commitCycle ≤ getF s CYCLE_NUM then some (headErr 0x0102 0x10) else none

/-- What the loader finds before it fetches the body (R202, R211, R230). -/
def headChecks (s : State) : Option LoadErr :=
  let b := fun (o : Nat) => s.load.header.getD o 0
  firstErr [check0101 b, lengths0102 b s.load.len, commitAhead s, stageOutside s]

/-- The load is accepted: fresh working keys, and FETCH. -/
def startLoad (s0 : State) (q : Request) (id : Nat) (header : List Byte) : State :=
  let p := par q 1 1
  let s := endPartialLoad s0
  let s1 := (List.range 4).foldl (fun a st => drawKeys a p st false) (abandonRekeys s p)
  let s2 := setFs s1 [(LOAD_PHASE, lpFetch), (LOAD_PARTITION, p), (LOAD_PARTIAL, (ilPartial q).toNat), (LOAD_FOLD, par q 0 1 % 2),
    (LOAD_BYTES, 0)]
  let l : Load := { Load.none with
    call := id, commitAt := bitOf (par q 0 1) 2, commitCycle := par q 0x10 6, keySlot := par q 2 1, dtCount := par q 4 2, len := par q 8 8,
    lines := (List.range 4).map (fun st => par q (0x28 + 8 * st) 8), start := elapsedNs s, header := header,
    resetDue := if ilPartial q then some p else none, unload := s.load.unload }
  let s3 := fixRoutes s1 { s2 with load := l } [evLoadDone]
  let s4 := takeBanks (if ilPartial q then s3 else beginFull s3)
  match headChecks s4 with
  | some e => rejectLoad s4 e
  | none => s4

/-- The record of an IMAGE_LOAD from a partition that may not issue it (R221). -/
def rightRecord (q : Request) : LoadErr := { headErr 0x0106 (par q 1 1) with status := rsNoRight }

/-- IMAGE_LOAD; `header`: the first 256 bytes of the stream. A full load ends a PARTIAL load that waits for its release (R233). -/
def cmdImageLoad (header : List Byte) : Cmd where
  opcode := 0x0301
  ringsOnly := true
  length := lenIs 72
  scope := .plain
  right := fun _ q r => r == 0 || (ilPartial q && par q 1 1 == r)
  params := fun _ q _ => decide (par q 0 1 < 8) && decide (par q 1 1 < 16) && decide (par q 2 1 < 32) && zeroPar q 3 1
    && decide (1 ≤ par q 4 2) && decide (par q 4 2 ≤ 512) && decide (1 ≤ par q 6 2) && zeroPar q 0x16 2
  ready := fun s q _ => busyUnless (
    (!loading s || (!ilPartial q && inPhase s lpWait)) && s.load.unload.isNone
      && (ilPartial q || runState s != stRunning) && banksFree s)
  run := fun s q _ => .pending s (fun a id => startLoad a q id header)
  denial := fun q => (rightRecord q).bytes

def execImageLoad (r : BitVec 5) (p : Packet) (header : List Byte) (s : State) : Host.Outcome State Fault Refusal :=
  fromRing (cmdImageLoad header) r p s

/-! ## FETCH (R211, R212, R214 to R216) -/

/-- The key of the load's key slot, where the slot suits the load (R428). -/
def loadKey (s : State) : Option (BitVec 256) :=
  let k := s.load.keySlot
  let id := leNat ((s.load.header.drop 0x10).take 16)
  if flag s (KS_VALID k) ∧ getF s (KS_PARTITION k) = loadPart s
      ∧ (¬ flag s (KS_WRAPPED k) ∨ getF s (KS_IMAGE_LO k) + 2 ^ 64 * getF s (KS_IMAGE_HI k) = id) then some (mget s.sec.root 0 k)
  else none

/-- The logical device that the device table places on this device. -/
def ownLdev (s : State) (dt : List Byte) : Option Nat :=
  ((List.range (dt.length / 272)).find? (fun i => dtField dt i 2 2 % 512 == getF s DEV_ID)).map (fun i => dtField dt i 0 2 % 512)

/-- The label "SK96-IMAGE". -/
def labelImage : List Byte := [0x53, 0x4B, 0x39, 0x36, 0x2D, 0x49, 0x4D, 0x41, 0x47, 0x45]

/-- K_i, 32 bytes: HMAC-SHA-384 of the string M_i under KR (R215). -/
def segmentKey (kr : BitVec 256) (header : List Byte) (ldev i : Nat) : List Byte :=
  (Crypto.hmac (leBytes 32 kr.toNat) (kdfString 1 labelImage ((header.drop 0x10).take 16) ldev i 0x100)).take 32

/-- The IV of a segment (R216). -/
def segmentIv (i : Nat) : List Byte := List.replicate 8 0 ++ Crypto.beBytes 4 i

/-- Segments of a stream, `n` of them from number `i` on: plaintext and computed tags (R214 to R216). -/
def decryptSegments (kr : BitVec 256) (header : List Byte) (ldev : Nat) : Nat → Nat → List Byte → List Byte × List (BitVec 128)
  | 0, _, _ => ([], [])
  | n + 1, i, l =>
    let size := if i = 0 then 16777216 - 256 else 16777216
    let c := l.take size
    let key := segmentKey kr header ldev i
    let rest := decryptSegments kr header ldev n (i + 1) (l.drop size)
    (Crypto.gcmCrypt key (segmentIv i) c ++ rest.1,
      BitVec.ofNat 128 (leNat (Crypto.gcmTag key (segmentIv i) (if i = 0 then header else []) c)) :: rest.2)

/-- Numbers of the header as it arrived. -/
def hdr (s : State) (o n : Nat) : Nat := leNat ((s.load.header.drop o).take n)
def loadAuthOff (s : State) : Nat := hdr s 0x58 4
def loadSegments (s : State) : Nat := ceilDiv (loadAuthOff s) 16777216

/-- The FABRIC payloads of the staged stream stand in the scratchpad banks 48 to 63 (R213). -/
def stageFabric (s : State) : State :=
  let b := staged s
  { s with sp := wrList s.sp fabricBank ((fabricPayload b ((framesOf b).flatMap (frameItems b))).take fabricRoom) }

/-- LOAD_FETCH_COMPLETE: the device table and the stream after its header have arrived; `body` is as long as the header says. -/
def execLoadFetchComplete (dt body : List Byte) (s : State) : Host.Outcome State Fault Refusal :=
  if inPhase s lpFetch ∧ dt.length = 272 * s.load.dtCount ∧ 256 + body.length = s.load.len then
    let n := loadAuthOff s - 256
    let ld := (ownLdev s dt).getD 0x3FF
    let x := match loadKey s with
      | some kr => decryptSegments kr s.load.header ld (loadSegments s) 0 (body.take n)
      | none => ([], [])
    let plain := match loadKey s with
      | some _ => s.load.header ++ x.1 ++ body.drop n
      | none => s.load.header
    let s1 := { s with load := { s.load with dt := dt, tags := x.2, ldev := ld } }
    let s2 := stageBytes s1 0 (toLines plain) (ceilDiv s.load.len 65536)
    .next (setF (if (loadKey s).isSome then stageFabric s2 else s2) LOAD_PHASE lpVerify)
  else .next s

/-- HOST_LINK_DMA_ERROR: an access of the host link fails; in FETCH it ends the load with TIMEOUT (R222, R454). -/
def execHostLinkDmaError (target : DmaTarget) (s : State) : Host.Outcome State Fault Refusal :=
  match target with
  | .commandRing r => .next (ringDmaError s r.toNat)
  | .queueRing _ => .next s
  | .imageStream => if inPhase s lpFetch then .next (failLoad s ⟨0, s.load.ldev, 0, 0, rsTimeout⟩) else .next s

/-! ## VERIFY (R216 to R218) -/

/-- The authentication block is well formed (R217). -/
def authWellFormed (s : State) (b : Nat → Byte) : Bool :=
  let a := imgAuthOff b
  let n := loadSegments s
  numAt b a 4 == 0x48545541 && numAt b (a + 4) 4 == n && decide (numAt b (a + 8) 1 ≤ 1) && numAt b (a + 9) 7 == 0
    && imgAuthLen b == 0xB0 + 16 * n && (numAt b (a + 8) 1 == 1 || (numAt b (a + 0x20) 48 == 0 && numAt b (a + 0x50) 96 == 0))

/-- The first segment whose computed tag is not the stored one. -/
def badSegment (s : State) (b : Nat → Byte) : Option Nat :=
  (List.range (loadSegments s)).find? (fun i =>
    s.load.tags.getD i 0 != BitVec.ofNat 128 (numAt b (imgAuthOff b + 0xB0 + 16 * i) 16) || decide (s.load.tags.length ≤ i))

/-- The 16 bytes of a tag. -/
def tagBytes (t : BitVec 128) : List Byte := leBytes 16 t.toNat

/-- The final tag verifies. -/
def finalGood (s : State) (b : Nat → Byte) (kr : BitVec 256) : Bool :=
  let a := imgAuthOff b
  Crypto.gcmTag (segmentKey kr s.load.header s.load.ldev 0xFFFFFFFF) (segmentIv 0xFFFFFFFF)
      (s.load.header ++ listAt b a 16 ++ s.load.tags.flatMap tagBytes) [] == listAt b (a + 0x10) 16

/-- The signature is as R218 asks for: a sealed image must carry one. -/
def signatureGood (s : State) (b : Nat → Byte) : Bool :=
  let a := imgAuthOff b
  let key := mget s.sec.signKey [] (loadPart s)
  if numAt b (a + 8) 1 = 0 then !imgSealed b
  else
    !key.isEmpty && Crypto.sha384 key == listAt b (a + 0x20) 48
      && Crypto.ecdsaGood key (Crypto.sha384 (s.load.header ++ listAt b a 32)) (listAt b (a + 0x50) 96)

/-- DETAIL of a failure of authentication (R222, R428). -/
def authDetail (s : State) (b : Nat → Byte) : Option Nat :=
  match loadKey s with
  | none => some 0
  | some kr =>
    if ¬ authWellFormed s b then some 0xFFFFFFFD
    else match badSegment s b with
      | some i => some i
      | none => if ¬ finalGood s b kr then some 0xFFFFFFFF else if ¬ signatureGood s b then some 0xFFFFFFFE else none

/-- A load that is not authentic: the outputs go to high impedance, and a sealed image's signature raises the alarm (R227, R434). -/
def failAuth (s : State) (detail : Nat) : State :=
  let sealedSig := detail = 0xFFFFFFFE ∧ bitOf (hdr s 0x08 4) 1
  let s1 := failLoad s ⟨0, s.load.ldev, detail, 0, rsAuthFail⟩
  let s2 := setFlag (clearOutputs s1) TIO_DISABLED true
  if sealedSig then secAlarm s2 alSig 2 (loadPart s) 0 0 else s2

/-- LOAD_VERIFY_COMPLETE. -/
def execLoadVerifyComplete (s : State) : Host.Outcome State Fault Refusal :=
  if ¬ inPhase s lpVerify then .next s
  else if (loadKey s).isSome ∧ (stageBad s).isSome then .next (readStage s s)
  else
    match authDetail s (staged s) with
    | some d => .next (failAuth (setF s LOAD_BYTES (min s.load.len (if d < 0xFFFFFFFD then d * 16777216 else s.load.len))) d)
    | none => .next (setFs s [(LOAD_PHASE, lpCheck), (LOAD_BYTES, s.load.len)])

/-! ## CHECK, wake and WRITE (R194, R226, R509) -/

/-- The tiles that a load covers: all of them, or the partition's. -/
def loadTiles (s : State) : List Nat := if loadPartial s then partTiles s (loadPart s) else List.range 128

/-- WRITE begins: the fabric is cleared when the stream carries FABRIC frames (R210, R402), tiles without a logical tile are gated, the
others that are gated wake. -/
def beginWrite (s : State) (g : Image) : State :=
  let used := g.tiles.map g.tileOf
  let s0 := if fabricBytes g = 0 then s else clearFabric s
  let s1 := gateTiles s0 ((loadTiles s).filter (fun t => !used.contains t))
  setF { s1 with load := { s1.load with waking := (List.range 128).filter (fun t => used.contains t && flag s1 (TILE_GATED t)) } } LOAD_PHASE lpWrite

/-- LOAD_CHECK_COMPLETE: once the partition's tiles are in reset. -/
def execLoadCheckComplete (s : State) : Host.Outcome State Fault Refusal :=
  if inPhase s lpCheck ∧ s.load.resetDue = none then
    let g := imageOf s
    let s1 := { s with load := { s.load with ldev := g.ldev } }
    .next (readStage s (match loaderChecks s1 g with | some e => failLoad s1 e | none => beginWrite s1 g))
  else .next s

/-- TILE_WAKE: the tile's arrays hold 0, and its fence is released (R509). -/
def execTileWake (tile : BitVec 7) (s : State) : Host.Outcome State Fault Refusal :=
  let t := tile.toNat
  if s.load.waking.contains t then
    let s1 := addF (tileStatus (clearTile s t) t [(TILE_GATED t, 0), (TILE_FENCED t, 0)]) WAKE_COUNT 1
    .next { s1 with load := { s1.load with waking := s1.load.waking.erase t } }
  else .next s

/-- The final reply of a successful load, and what the load leaves (R222). -/
def endLoad (s : State) (cycle : Nat) : State :=
  let us := (elapsedNs s - s.load.start) / 1000 % 2 ^ 32
  let call := s.load.call
  let s1 := setF { s with load := { Load.none with unload := s.load.unload } } LOAD_PHASE lpDone
  loadReply s1 call rsOk (leBytes 8 cycle ++ leBytes 4 us ++ leBytes 4 0)

/-- Records on their way, and frames with them, are discarded (R98). -/
def discardRecords (s : State) : State :=
  { s with ex := { s.ex with transit := [], opened := [], frames := [], seqTx := [], seqRx := [], flits := [] },
           lnk := { s.lnk with trunk := s.lnk.trunk.map (fun e => (e.1, { e.2 with queue := e.2.queue.filter (fun f => f.type != ftExch) })) } }

/-- Steps 7 to 10 of a full load. -/
def finishFull (s : State) (x : ImageIdent) : State :=
  let p := loadPart s
  let s1 := recordImage (clearFault (setFs (discardRecords s) [(CYCLE_NUM, 0), (SYS_EPOCH, 0), (STOP_LOC, 0)])) p x
  let s2 := linkPartition { s1 with sys := { s1.sys with deviceImage := BitVec.ofNat 128 x.image } } p
  let s3 := setRunState (startTiles (emptyFifos (clearHrings { s2 with qs := { s2.qs with logged := [] }, cyc := { s2.cyc with tout := [] } })) x.tiles) stStopped
  let s4 := setFlag (setFabOe s3 true) CFG_ERR false
  endLoad (identityChanged (reportAll s4 false true)) 0

/-- LOAD_WRITE_COMPLETE: arrays, tables, FAR regions and fabric are written, and staging is cleared; a full load then ends, a PARTIAL
one waits for its release. -/
def execLoadWriteComplete (s : State) : Host.Outcome State Fault Refusal :=
  if inPhase s lpWrite ∧ s.load.waking = [] then
    let g := imageOf s
    let x := identOf s g
    let s1 := clearStage (writeImage s g)
    .next (readStage s (if loadPartial s then setF { s1 with load := { s1.load with ident := some x } } LOAD_PHASE lpWait else finishFull s1 x))
  else .next s

/-! ## Partial reload (R229 to R231) -/

/-- PARTIAL_LOAD_BOUNDARY: at a boundary the partition's tiles enter reset. -/
def execPartialLoadBoundary (s : State) : Host.Outcome State Fault Refusal :=
  match s.load.resetDue with
  | some p => if atBoundary s then .next (forgetReset (enterReset s p)) else .next s
  | none => .next s

/-- The device takes the release boundary: running or stopped at a boundary, into COMMIT_CYCLE where one is set, with no operation of the
system due there and the exchange drained. -/
def releaseOpen (s : State) : Bool :=
  inPhase s lpWait && atBoundary s && decide (runState s ≤ stRunning) && (dueOps s).isEmpty && drained s
    && (!s.load.commitAt || decide (s.load.commitCycle ≤ getF s CYCLE_NUM))

/-- LOAD_RELEASE. -/
def execLoadRelease (s : State) : Host.Outcome State Fault Refusal :=
  match s.load.ident with
  | none => .next s
  | some x =>
    if releaseOpen s then
      let p := loadPart s
      let s1 := linkPartition (resetCredits (recordImage s p x) x.tiles) p
      let s2 := startTiles (clearOutbound s1 p) x.tiles
      let s3 := if runState s2 = stIdle then setRunState s2 stStopped else s2
      .next (endLoad (identityChanged s3) (getF s CYCLE_NUM))
    else .next s

/-! ## IMAGE_ABORT, IMAGE_UNLOAD (R223, R233, R465) -/

/-- IMAGE_ABORT: only before the release of a load of that partition. -/
def cmdImageAbort : Cmd where
  opcode := 0x0302
  ringsOnly := false
  length := lenIs 1
  scope := .plain
  right := fun _ q r => r == 0 || par q 0 1 == r
  params := fun s q _ => loading s && par q 0 1 == loadPart s
  ready := always
  run := fun s _ _ => okReply (failLoad s (abortRecord s)) []

def execImageAbort (r : BitVec 5) (p : Packet) (s : State) : Host.Outcome State Fault Refusal := fromRing cmdImageAbort r p s

/-- IMAGE_UNLOAD. -/
def cmdImageUnload : Cmd where
  opcode := 0x0303
  ringsOnly := false
  length := lenIs 8
  scope := .plain
  right := fun _ q r => r == 0 || par q 0 1 == r
  params := fun _ q _ => decide (par q 0 1 < 16) && zeroPar q 1 7
  ready := fun s _ _ => busyUnless (!loading s && s.load.unload.isNone)
  run := fun s q _ => .pending s (fun a id =>
    let b := abandonRekeys a (par q 0 1)
    { b with load := { b.load with unload := some (id, par q 0 1) } })

def execImageUnload (r : BitVec 5) (p : Packet) (s : State) : Host.Outcome State Fault Refusal := fromRing cmdImageUnload r p s

/-- UNLOAD_BOUNDARY: the partition's tiles enter reset and are gated; without an image left the device is IDLE (R141). -/
def execUnloadBoundary (s : State) : Host.Outcome State Fault Refusal :=
  match s.load.unload with
  | some (call, p) =>
    if atBoundary s then
      let s1 := dropImage (gateTiles (enterReset s p) (partTiles s p)) p
      let s2 := fixRoutes s1 (setF { s1 with load := { s1.load with unload := none, resetDue := none } } LOAD_PARTITION p) [evLoadDone]
      let s3 := if (imageParts s2).isEmpty then setRunState s2 stIdle else s2
      .next (loadReply (identityChanged s3) call rsOk [])
    else .next s
  | none => .next s

/-- CFG_ERR_CLEAR: partition 0 writes 1 to LOAD_STATUS.CFG_ERR. -/
def clearCfgErr (s : State) : State := setFlag s CFG_ERR false

def execCfgErrClear (s : State) : Host.Outcome State Fault Refusal := byHost s clearCfgErr

end Sys2Proof.Machine
end

