-- ==== Sys2Proof/Machine/Firmware.lean ====
section
/-!
DEFINITION. NV memory (R235 to R239): firmware banks, bank selectors and the option words.
-/
namespace Sys2Proof.Machine
open Sys2Proof Reg

/-! ## Bank selectors (R235, R238) -/

/-- The 16 bytes of a selector copy: MAGIC, SEQ, ACTIVE and the CRC-32 over them. -/
def selectorBytes (seq : Nat) (act : Bool) : List Byte :=
  let body := leBytes 4 0x4C455342 ++ leBytes 4 seq ++ leBytes 4 act.toNat
  body ++ leBytes 4 (crcBytes 32 0x04C11DB7 0xFFFFFFFF 0xFFFFFFFF true true body)

/-- SEQ and ACTIVE of a copy that is valid. -/
def readSelector (l : List Byte) : Option (Nat × Bool) :=
  let seq := leNat ((l.drop 4).take 4)
  let act := l.getD 8 0 == 1
  if l = selectorBytes seq act then some (seq, act) else none

/-- The governing copy: valid, with the higher SEQ; `none`: no valid copy. The first part is the copy's number. -/
def governing (s : State) : Option (Nat × Nat × Bool) :=
  match readSelector s.nv.sel0, readSelector s.nv.sel1 with
  | some a, some b => some (if a.1 < b.1 then (1, b) else (0, a))
  | some a, none => some (0, a)
  | none, some b => some (1, b)
  | none, none => none

/-- The active bank: false for A, also where no copy is valid. -/
def activeBank (s : State) : Bool := match governing s with | some x => x.2.2 | none => false

/-- Bytes of a bank, and where the inactive bank begins in `banks`. -/
def bankSize : Nat := 6 * 2 ^ 20
def inactiveBase (s : State) : Nat := if activeBank s then 0 else bankSize

/-- The data of FW_WRITE: inline behind its 16 parameter bytes, or what was read at its host address. -/
def fwData (q : Request) (data : List Byte) : List Byte := if par q 8 8 = 0 then q.params.drop 16 else data.take (par q 4 4)

/-- FW_WRITE; `data`: what the host holds at the address. -/
def cmdFwWrite (data : List Byte) : Cmd where
  opcode := 0x0310
  ringsOnly := false
  length := fun _ q => if par q 8 8 = 0 then q.length == 16 + par q 4 4 else q.length == 16
  scope := .plain
  right := onlyZero
  params := fun _ q _ => decide (par q 0 4 + par q 4 4 ≤ bankSize) && (par q 8 8 == 0 || (match q.via with | .ring _ => true | _ => false))
  ready := always
  run := fun s q _ => okReply { s with nv := { s.nv with banks := wrList s.nv.banks (inactiveBase s + par q 0 4) (fwData q data) } } []

def execFwWrite (r : BitVec 5) (p : Packet) (data : List Byte) (s : State) : Host.Outcome State Fault Refusal :=
  fromRing (cmdFwWrite data) r p s

/-- The selector that FW_ACTIVATE writes, into the copy that does not govern. -/
def writeSelector (s : State) : State :=
  match governing s with
  | some (0, seq, act) => { s with nv := { s.nv with sel1 := selectorBytes (seq + 1) (!act) } }
  | some (_, seq, act) => { s with nv := { s.nv with sel0 := selectorBytes (seq + 1) (!act) } }
  | none => { s with nv := { s.nv with sel0 := selectorBytes 1 true } }

/-- FW_ACTIVATE. -/
def cmdFwActivate : Cmd where
  opcode := 0x0311
  ringsOnly := false
  length := lenIs 0
  scope := .plain
  right := onlyZero
  params := noParams
  ready := always
  run := fun s _ _ =>
    if Config.bankGood (rdList s.nv.banks (inactiveBase s) bankSize) then okReply (setF (writeSelector s) NEXT_BANK (!activeBank s).toNat) []
    else .final s rsAuthFail []

def execFwActivate (r : BitVec 5) (p : Packet) (s : State) : Host.Outcome State Fault Refusal := fromRing cmdFwActivate r p s

/-! ## Option words (R236, R239) -/

/-- OPT_WRITE. -/
def cmdOptWrite : Cmd where
  opcode := 0x0312
  ringsOnly := false
  length := fun _ q => decide (1 ≤ par q 2 2) && decide (par q 2 2 ≤ 224) && q.length == 8 + par q 2 2
  scope := .plain
  right := onlyZero
  params := fun _ q _ => decide (par q 0 2 + par q 2 2 ≤ 0xFFC) && zeroPar q 4 4
  ready := always
  run := fun s q _ => okReply { s with nv := { s.nv with image := setOptList s.nv.image (par q 0 2) (q.params.drop 8) } } []

def execOptWrite (r : BitVec 5) (p : Packet) (s : State) : Host.Outcome State Fault Refusal := fromRing cmdOptWrite r p s

/-- The image with OPT_MAGIC and OPT_FORMAT set. -/
def sealOptions (m : Map Byte) : Map Byte := setOptList (setOptList m 0 [0x53, 0x4F, 0x50, 0x54]) 4 [1, 0]

/-- OPT_CRC of a set of option words (R236, R361). -/
def optCrc (m : Map Byte) : Nat := crcBytes 32 0x04C11DB7 0xFFFFFFFF 0xFFFFFFFF true true (optList m 0 0xFFC)

/-- OPT_COMMIT. -/
def cmdOptCommit : Cmd where
  opcode := 0x0313
  ringsOnly := false
  length := lenIs 0
  scope := .plain
  right := onlyZero
  params := noParams
  ready := fun s _ _ => busyUnless s.nv.commit.isNone
  run := fun s _ _ => .pending s (fun a id => { a with nv := { a.nv with image := sealOptions a.nv.image, commit := some id } })

def execOptCommit (r : BitVec 5) (p : Packet) (s : State) : Host.Outcome State Fault Refusal := fromRing cmdOptCommit r p s

/-- OPT_COMMIT_COMPLETE: the sector is programmed and read back; `readBack`: as written. -/
def execOptCommitComplete (readBack : Bool) (s : State) : Host.Outcome State Fault Refusal :=
  match s.nv.commit with
  | none => .next s
  | some id =>
    let s1 := { s with nv := { s.nv with commit := none, words := s.nv.image, good := readBack } }
    .next (if readBack then finalReply s1 id rsOk [] else finalReply (setFlag s1 OPT_DEFAULT true) id rsTimeout [])

/-- A byte of the option words as OPT_READ returns it: MGMT_KEY reads 0, OPT_CRC follows from the rest. -/
def optReadByte (m : Map Byte) (a : Nat) : Byte :=
  if 0x040 ≤ a ∧ a < 0x060 then 0
  else if 0xFFC ≤ a then BitVec.ofNat 8 (optCrc m / 256 ^ (a - 0xFFC))
  else optByte m a

/-- OPT_READ. -/
def cmdOptRead : Cmd where
  opcode := 0x0314
  ringsOnly := false
  length := lenIs 8
  scope := .plain
  right := onlyZero
  params := fun _ q _ => decide (1 ≤ par q 2 2) && decide (par q 2 2 ≤ 112) && decide (par q 0 2 + par q 2 2 ≤ 0x1000) && zeroPar q 4 4
  ready := always
  run := fun s q _ => okReply s ((List.range (par q 2 2)).map (fun i => optReadByte s.nv.words (par q 0 2 + i)))

def execOptRead (r : BitVec 5) (p : Packet) (s : State) : Host.Outcome State Fault Refusal := fromRing cmdOptRead r p s

end Sys2Proof.Machine
end

