-- ==== Sys2Proof/Machine/Lanes.lean ====
section
/-!
DEFINITION. LANE_CTRL's ENABLE and TRUNK (R280, R282, R295, R308): a lane that leaves its trunk fails in it, one that joins trains, and a
trunk appears or ceases to exist with its lanes.
-/
namespace Sys2Proof.Machine
open Sys2Proof Reg

/-- A trunk without lanes is INACTIVE, and NONE in the system, and holds nothing; with its first lane it is TRAINING (R278, R282). One
that was UP has lost its partner (R266). -/
def refreshTrunk (s : State) (t : Nat) : State :=
  if trunkExists s t then (if getF s (LSTATE t) = tkInactive then setLstate s t tkTraining else s)
  else if getF s (LSTATE t) = tkInactive then s
  else
    let was := getF s (TS_STATE t)
    let s1 := setTrunkState (setLstate (setTrunk s t .reset) t tkInactive) t tsNone 0
    let s2 := updateLevel s1
    if was = tsUp then losePartner s2 t else s2

/-- The lanes of a trunk that have left it since `s0` have failed; those that still carry it re-form it (R301, R302). -/
def leaveTrunk (s0 s : State) (t : Nat) : State :=
  let was := carriers s0 t
  let stays := fun m => (trunkLanes s t).contains m
  let gone := was.filter (fun m => !stays m)
  let s1 := downLanes s gone
  match was.filter stays with
  | [] => s1
  | a :: r => if gone.isEmpty then s1 else beginRecover s1 t (a :: r)

/-- A lane whose trunk has changed trains anew in it, or is in DISABLED with none; a test of an enabled lane goes on (R295). -/
def placeLane (s : State) (n : Nat) : State :=
  if getF s (LANE_STATE n) = lsTest ∧ flag s (LANE_ENABLE n) then s
  else if (trunkOfLane s n).isSome then enterDetect s n
  else setF (enterDetect s n) (LANE_STATE n) lsDisabled

def placeLanes (s : State) : List Nat → State
  | [] => s
  | n :: r => placeLanes (placeLane s n) r

/-- The lanes of trunk `t` in just one of two states. -/
def movedIn (s0 s : State) (t : Nat) : List Nat :=
  let a := trunkLanes s0 t
  let b := trunkLanes s t
  a.filter (fun m => !b.contains m) ++ b.filter (fun m => !a.contains m)

/-- ENABLE and TRUNK of a lane take values. A lane pushed beyond the sixteenth of a trunk, or drawn back among the sixteen, changes its
trunk with it (R280). -/
def setLaneCtrl (s : State) (n : Nat) (enable : Bool) (trunk : Nat) : State :=
  let old := getF s (LANE_TRUNK n)
  if flag s (LANE_ENABLE n) = enable ∧ old = trunk then s
  else
    let s1 := setFs s [(LANE_ENABLE n, enable.toNat), (LANE_TRUNK n, trunk)]
    let moved := (n :: (movedIn s s1 old ++ movedIn s s1 trunk)).eraseDups
    let s2 := leaveTrunk s (leaveTrunk s s1 old) trunk
    refreshTrunk (refreshTrunk (placeLanes s2 moved) old) trunk

end Sys2Proof.Machine
end

