-- ==== Sys2Proof/Machine/Sync.lean ====
section
/-!
DEFINITION. Steps of local time, its distribution over the links, the servo, the Ethernet port and the time commands (R313 to R327, R335).
A stamp is local time when the command takes place; a residence or turnaround time is an operand.
-/
namespace Sys2Proof.Machine
open Sys2Proof Reg

/-! ## Steps (R313, R314) -/

/-- A step of this size is refused now: more than 1 µs while RUNNING and PACED. -/
def stepRefused (s : State) (step16 : Int) : Bool :=
  runState s == stRunning && flag s SEQ_MODE && decide (65536000 < step16.natAbs)

/-- Comparators that a forward step passes. -/
def passedCmps (before after : State) : List Nat :=
  (List.range 8).filter (fun j => cmpArmed before j && decide (cmpDelta before j < 0) && decide (0 ≤ cmpDelta after j))

/-- A tick is released at a step that passes PACED instants, where nothing holds it. LAST_PERIOD is then a free value: the step's command
measures no period (log entry 34). -/
def tickAtStep (s : State) : State :=
  if flag s SEQ_MODE ∧ runState s = stRunning ∧ releaseReady s ∧ ¬ skewBlocks s ∧ ¬ throttled s then
    releaseTick (drawFree s) (Config.freeValue 32 s.free).toNat
  else s

/-- Local time steps to a value in units of 2^-40 ns (R314): comparators passed fire, and PACED instants passed over are not counted but
for one tick at the step. -/
def stepTo (s0 : State) (v : Nat) : State :=
  let s := fireOps s0
  let s1 := fireOps (putTime40 s v)
  let s2 := fireAll s1 (if now40 s < v then passedCmps s s1 else [])
  if s.cyc.instant < instantsPassed s1 then tickAtStep (reindex s2) else s2

/-- Add a signed offset in units of 2^-16 ns; time counts modulo 2^48 s. -/
def stepBy (s : State) (d : Int) : State :=
  let m : Int := (2 ^ 48 * 1000000000 * 2 ^ 40 : Nat)
  stepTo s ((((now40 s : Nat) : Int) + d * (2 ^ 24 : Int)) % m).toNat

/-! ## The servo (R322, R323) -/

/-- The servo sets RATE_ADJ within `lim` ppb: the manual gives no control law, so the trim is a free value. -/
def servoRate (s : State) (lim : Nat) : State :=
  setRate (drawFree s) ((((Config.freeValue 32 s.free).toNat % (2 * lim + 1) : Nat) : Int) - (lim : Int))

/-- ACQUIRING: a step where it is large and allowed, else a slew; sixteen small offsets in a row lead to LOCKED. -/
def acquire (s : State) (off : Int) : State :=
  let g := if off.natAbs < 20 * 65536 then s.time.good + 1 else 0
  let s1 := { s with time := { s.time with good := g } }
  let s2 := if 65536000 < off.natAbs ∧ stepRefused s (-off) = false then stepBy s1 (-off) else servoRate s1 100000
  if g = 16 then setTstate s2 tsLocked else s2

/-- LOCKED: the servo steers; four large offsets in a row lead to ACQUIRING. -/
def steer (s : State) (off : Int) : State :=
  let b := if 100 * 65536 < off.natAbs then s.time.bad + 1 else 0
  let s1 := servoRate { s with time := { s.time with bad := b } } 500000
  if b = 4 then setTstate s1 tsAcquiring else s1

/-- An offset from the master reaches the servo, which stands still during a lockstep switchover (R325). -/
def servo (s0 : State) (off : Int) : State :=
  let s := setF s0 LAST_OFFSET (patternOf 64 off)
  if flag s SWITCHING then s
  else if getF s TSTATE = tsLocked then steer s off else acquire (setTstate s tsAcquiring) off

/-- TIME_CTRL has been written: the state that its role enters (R323); any other role keeps the state. -/
def refreshRole (s : State) : State :=
  let role := getF s TIME_ROLE
  if role = 2 ∧ ¬ flag s TIME_SOURCE then setTstate s tsLocked
  else if role = 0 ∨ role = 3 ∨ (role = 1 ∧ getF s TIME_PARENT = 0x7F) then setTstate s tsFreerun
  else s

/-! ## Sync over the links (R317 to R322) -/

/-- A signed 64-bit sum saturates (R321). -/
def sat64 (v : Int) : Int := max (-(2 ^ 63 : Int)) (min (2 ^ 63 - 1 : Int) v)

/-- MPD and ASYM of a trunk, in units of 2^-16 ns. -/
def pathDelay (s : State) (t : Nat) : Int := (getF s (TRUNK_MPD t) : Int) + signedOf 32 (getF s (TRUNK_ASYM t))

/-- Trunks to children. -/
def children (s : State) : List Nat := (List.range 96).filter (fun t => childTrunk s t && getF s (LSTATE t) == tkActive)

/-- Send Sync on a trunk with its own SEQ_ID. -/
def sendSync (s : State) (t sec ns : Nat) (corr : Int) (gm : Bool) : State :=
  sendTimeFlit (bumpSeqId s (t * 4)) t (timeBits s 0 (nextSeqId s (t * 4)) sec ns corr gm)

/-- The Rooster's Sync on each child trunk. -/
def sendSyncs (s : State) : List Nat → State
  | [] => s
  | t :: r =>
    sendSyncs (sendSync s t s.time.sec.toNat s.time.ns (s.time.frac.toNat / 2 ^ 24 : Nat) (getF s TSTATE == tsHoldover)) r

/-- TIME_SYNC_SEND: the Sync interval expires on the Rooster. -/
def execTimeSyncSend (s : State) : Host.Outcome State Fault Refusal :=
  if getF s TIME_ROLE = 2 then .next (sendSyncs s (children s)) else .next s

/-- Forward a Sync on each child trunk; the residence times are in units of 2^-16 ns. -/
def forwardSync (s : State) (sec ns : Nat) (corr : Int) (gm : Bool) : List Nat → List (BitVec 32) → State
  | [], _ => s
  | t :: r, res =>
    forwardSync (sendSync s t sec ns (sat64 (corr + ((res.headD 0).toNat : Int))) gm) sec ns corr gm r (res.drop 1)

/-- The trunk on which a TIME flit arrives. -/
def timeTrunk (s : State) (rx : Rx) : Option Nat := trafficTrunk s rx.lane.toNat

/-- TIME_SYNC received; `residence` is t_egress − t_ingress for each child trunk in ascending order. -/
def execTimeSync (rx : Rx) (residence : List (BitVec 32)) (s0 : State) : Host.Outcome State Fault Refusal :=
  let s := heard s0 rx
  match timeTrunk s rx with
  | none => .next s
  | some t =>
    if getF s TIME_ROLE = 2 then .next (raiseEv (setFlag s TIME_CONFLICT true) evTimeConflict)
    else if getF s TIME_ROLE ≠ 1 then .next s
    else if t ≠ getF s TIME_PARENT then .next { s with time := { s.time with ignored := s.time.ignored + 1 } }
    else if mget s.time.mpdOk false t = false then .next s
    else
      let p := rx.payload
      let corr := signedOf 64 (pf p 128 64)
      let origin : Int := ((pf p 48 48 * 1000000000 + pf p 96 30) * 65536 : Nat)
      let off := (now16 s : Int) - (origin + corr + pathDelay s t)
      let gm := bitOf p.toNat 36
      let s1 := setFlag s GM_HOLDOVER gm
      let s2 := forwardSync s1 (pf p 48 48) (pf p 96 30) (sat64 (corr + pathDelay s t)) gm (children s1) residence
      .next (servo s2 off)

/-! ## Peer delay (R320) -/

def askAll (s : State) : List Nat → State
  | [] => s
  | t :: r => askAll (askDelay s t) r

/-- PDELAY_INTERVAL: PDELAY_REQ on every trunk that carries time. -/
def execPdelayInterval (s : State) : Host.Outcome State Fault Refusal :=
  .next (askAll s ((List.range 96).filter (fun t => carriesTime s t && getF s (LSTATE t) == tkActive)))

/-- PDELAY_REQ received: answered with the turnaround time, in units of 2^-16 ns. -/
def execPdelayReq (rx : Rx) (turnaround : BitVec 32) (s0 : State) : Host.Outcome State Fault Refusal :=
  let s := heard s0 rx
  match timeTrunk s rx with
  | none => .next s
  | some t =>
    .next (sendTimeFlit (bumpSeqId s (t * 4 + 3)) t
      (timeBits s 3 (nextSeqId s (t * 4 + 3)) 0 0 (turnaround.toNat : Int) false))

/-- Half of a difference; an odd one is rounded as the implementation rounds. -/
def halve (x : Int) : Int := if x % 2 ≠ 0 ∧ Config.halfUp x then (x + 1) / 2 else x / 2

/-- PDELAY_RESP received: the mean path delay. -/
def execPdelayResp (rx : Rx) (s0 : State) : Host.Outcome State Fault Refusal :=
  let s := heard s0 rx
  match timeTrunk s rx with
  | none => .next s
  | some t =>
    match mget s.time.asked none t with
    | none => .next s
    | some (_, t1) =>
      let x := (now16 s : Int) - (t1 : Int) - signedOf 64 (pf rx.payload 128 64)
      let s1 := setF s (TRUNK_MPD t) (patternOf 32 (halve x))
      .next { s1 with time := { s1.time with asked := mset s1.time.asked none t none,
                                             mpdOk := mset s1.time.mpdOk false t true } }

/-- PDELAY_TIMEOUT: the exchange ends, and the previous delay stands. -/
def execPdelayTimeout (t : BitVec 7) (s : State) : Host.Outcome State Fault Refusal :=
  .next { s with time := { s.time with asked := mset s.time.asked none t.toNat none } }

/-- LOSS_OF_MASTER: a locked follower, or a locked Rooster with an EXTERNAL source, goes into HOLDOVER (R324). -/
def execLossOfMaster (s : State) : Host.Outcome State Fault Refusal :=
  if getF s TSTATE = tsLocked ∧ (getF s TIME_ROLE = 1 ∨ (getF s TIME_ROLE = 2 ∧ flag s TIME_SOURCE)) then
    .next (setTstate s tsHoldover)
  else .next s

/-! ## The Ethernet port (R327) -/

/-- The Ethernet port has its reference clock, and the hub core runs (R507, R531). -/
def ethUp (s : State) : Bool := !mget s.pw.noClock false 8 && hubClock s && s.pw.boot == .up && decide (2 ≤ getF s PWR_STATE)

/-- SLAVE: only on a Rooster with an EXTERNAL source. MASTER: on any other device. -/
def extRooster (s : State) : Bool := getF s TIME_ROLE == 2 && flag s TIME_SOURCE
def ptpSlave (s : State) : Bool := ethUp s && extRooster s && getF s ETH_ROLE == 2
def ptpMaster (s : State) : Bool := ethUp s && !extRooster s && getF s ETH_ROLE == 1

/-- The port takes a message: its domain is the device's, and its encapsulation the one ETH_ENCAP selects. -/
def ptpHears (s : State) (f : PtpFrame) : Bool := f.domain == ptpDomain s && f.udp == flag s ETH_ENCAP

/-- The frame in which the port sends. -/
def ptpFrame (s : State) : PtpFrame := ⟨ptpDomain s, flag s ETH_ENCAP⟩

/-- A PTP time in units of 2^-16 ns. -/
def ptpTime (sec : BitVec 48) (ns : BitVec 32) : Int := ((sec.toNat * 1000000000 + ns.toNat) * 65536 : Nat)

/-- A Sync of the grandmaster is complete: t1 with its corrections, t2 its ingress. -/
def ptpSyncDone (s : State) (t1 : Int) (t2 : Nat) : State :=
  let s1 := { s with time := { s.time with ethPair := some (t1, t2), ethSync := none } }
  match s.time.ethMpd with
  | none => s1
  | some m => servo s1 ((t2 : Int) - (t1 + m))

/-- ETH_SYNC received in SLAVE: one-step, or kept for its Follow_Up. -/
def execEthSync (frame : PtpFrame) (seq : BitVec 16) (twoStep : Bool) (sec : BitVec 48) (ns : BitVec 32) (corr : BitVec 64)
    (s : State) : Host.Outcome State Fault Refusal :=
  if ptpSlave s = false ∨ ptpHears s frame = false then .next s
  else if twoStep then
    .next { s with time := { s.time with ethSync := some (seq.toNat, now16 s, signedOf 64 corr.toNat) } }
  else .next (ptpSyncDone s (ptpTime sec ns + signedOf 64 corr.toNat) (now16 s))

/-- FOLLOW_UP received: the precise origin of the Sync kept. -/
def execFollowUp (frame : PtpFrame) (seq : BitVec 16) (sec : BitVec 48) (ns : BitVec 32) (corr : BitVec 64) (s : State) :
    Host.Outcome State Fault Refusal :=
  if ptpSlave s = false ∨ ptpHears s frame = false then .next s
  else
    match s.time.ethSync with
    | some (q, t2, c) =>
      if q = seq.toNat then .next (ptpSyncDone s (ptpTime sec ns + c + signedOf 64 corr.toNat) t2) else .next s
    | none => .next s

/-- A PTP message goes out. -/
def ptpSend (s : State) (m : PtpMsg) : State := { s with time := { s.time with ptpOut := s.time.ptpOut ++ [m] } }

/-- DELAY_REQ received in MASTER: answered with its time of arrival. -/
def execDelayReq (frame : PtpFrame) (seq : BitVec 16) (requester : BitVec 80) (s : State) : Host.Outcome State Fault Refusal :=
  if ptpMaster s = false ∨ ptpHears s frame = false then .next s
  else .next (ptpSend s ⟨ptpFrame s, 9, seq.toNat, now16 s, leBytes 10 requester.toNat⟩)

/-- DELAY_RESP received in SLAVE: the end-to-end mean path delay. -/
def execDelayResp (frame : PtpFrame) (seq : BitVec 16) (sec : BitVec 48) (ns : BitVec 32) (corr : BitVec 64) (s : State) :
    Host.Outcome State Fault Refusal :=
  if ptpSlave s = false ∨ ptpHears s frame = false then .next s
  else
    match s.time.ethReq, s.time.ethPair with
    | some (q, t3), some (t1, t2) =>
      if q = seq.toNat then
        let t4 := ptpTime sec ns - signedOf 64 corr.toNat
        let m := halve (((t2 : Int) - t1) + (t4 - (t3 : Int)))
        .next { s with time := { s.time with ethReq := none, ethMpd := some m } }
      else .next s
    | _, _ => .next s

/-- ANNOUNCE received: recorded in either role, not acted on. -/
def execAnnounce (frame : PtpFrame) (body : List Byte) (s : State) : Host.Outcome State Fault Refusal :=
  if (ptpSlave s = false ∧ ptpMaster s = false) ∨ ptpHears s frame = false then .next s else .next { s with time := { s.time with announce := body } }

/-- ETH_SYNC_SEND: in MASTER, one-step Sync and Announce with the values of the option words. -/
def execEthSyncSend (s : State) : Host.Outcome State Fault Refusal :=
  if ptpMaster s then
    let s1 := ptpSend (bumpSeqId s 400) ⟨ptpFrame s, 0, nextSeqId s 400, now16 s, []⟩
    .next (ptpSend (bumpSeqId s1 411)
      ⟨ptpFrame s, 11, nextSeqId s1 411, 0, optList s.nv.inForce 0x028 8 ++ optList s.nv.inForce 0x030 6⟩)
  else .next s

/-- ETH_DELAY_REQ_SEND: in SLAVE, Delay_Req; its egress stamp is kept. -/
def execEthDelayReqSend (s : State) : Host.Outcome State Fault Refusal :=
  if ptpSlave s then
    let q := nextSeqId s 401
    let s1 := ptpSend (bumpSeqId s 401) ⟨ptpFrame s, 1, q, 0, []⟩
    .next { s1 with time := { s1.time with ethReq := some (q, now16 s) } }
  else .next s

/-! ## Commands (R335) -/

/-- TIME_GET. -/
def cmdTimeGet : Cmd where
  opcode := 0x0901
  ringsOnly := false
  length := lenIs 0
  scope := .plain
  right := anyPart
  params := noParams
  ready := always
  run := fun s _ _ => okReply s (leBytes 8 s.time.sec.toNat ++ leBytes 4 s.time.ns
    ++ leBytes 2 (s.time.frac.toNat / 2 ^ 24) ++ leBytes 1 (getF s TSTATE) ++ [0])

def execTimeGet (r : BitVec 5) (p : Packet) (s : State) : Host.Outcome State Fault Refusal := fromRing cmdTimeGet r p s

/-- The time TIME_SET names, in units of 2^-40 ns. -/
def setTimeValue (q : Request) : Nat := (par q 0 8 * 1000000000 + par q 8 4) * 2 ^ 40 + par q 12 2 * 2 ^ 24

/-- A step that is refused replies BUSY and sets STEP_REFUSED. -/
def refuseStep (s : State) : Answer := .final (setFlag s STEP_REFUSED true) rsBusy []

/-- TIME_SET. -/
def cmdTimeSet : Cmd where
  opcode := 0x0902
  ringsOnly := false
  length := lenIs 16
  scope := .plain
  right := onlyZero
  params := fun _ q _ => decide (par q 0 8 < 2 ^ 48) && decide (par q 8 4 < 1000000000) && zeroPar q 14 2
  ready := always
  run := fun s q _ =>
    if stepRefused s (((setTimeValue q : Nat) : Int) / (2 ^ 24 : Int) - (now16 s : Int)) then refuseStep s
    else okReply (stepTo s (setTimeValue q)) []

def execTimeSet (r : BitVec 5) (p : Packet) (s : State) : Host.Outcome State Fault Refusal := fromRing cmdTimeSet r p s

/-- TIME_STEP. -/
def cmdTimeStep : Cmd where
  opcode := 0x0903
  ringsOnly := false
  length := lenIs 8
  scope := .plain
  right := onlyZero
  params := noParams
  ready := always
  run := fun s q _ =>
    let d := signedOf 64 (par q 0 8)
    if stepRefused s d then refuseStep s else okReply (stepBy s d) []

def execTimeStep (r : BitVec 5) (p : Packet) (s : State) : Host.Outcome State Fault Refusal := fromRing cmdTimeStep r p s

/-- TIME_RATE. -/
def cmdTimeRate : Cmd where
  opcode := 0x0904
  ringsOnly := false
  length := lenIs 4
  scope := .plain
  right := onlyZero
  params := noParams
  ready := fun s _ _ => busyUnless (hostOwnsRate s)
  run := fun s q _ => okReply (setRate s (signedOf 32 (par q 0 4))) []

def execTimeRate (r : BitVec 5) (p : Packet) (s : State) : Host.Outcome State Fault Refusal := fromRing cmdTimeRate r p s

end Sys2Proof.Machine
end

