-- ==== Sys2Proof/Machine/Reset.lean ====
section
/-!
DEFINITION. Rails, resets, the bring-up order, power states and the watchdog (R475, R478, R502 to R516, R520, R527, R531).
-/
namespace Sys2Proof.Machine
open Sys2Proof Reg

/-! ## Rails (R502, R521) -/

/-- Rail `k` of RAIL_PGOOD is good. -/
def railGood (s : State) (k : Nat) : Bool := bitOf (getF s RAIL_PGOOD) k

/-- Every rail required in IDLE is good. -/
def railsIdle (s : State) : Bool := (List.range 14).all (railGood s)

/-- Set or clear one bit of a field. -/
def putBit (s : State) (f : Field) (k : Nat) (b : Bool) : State :=
  let v := getF s f
  setF s f (if bitOf v k = b then v else if b then v + 2 ^ k else v - 2 ^ k)

/-! ## What a reset keeps (R507, R514) -/

def causeFields : List Field := [RST_POR, RST_PIN, RST_CMD, RST_WDOG, RST_RAIL, RST_THERM, RST_BLOCK]

/-- What the pins and fuses show. -/
def senseFields : List Field :=
  [DEV_GRADE, DEV_STEPPING, SERIAL_LO, SERIAL_HI, RAIL_PGOOD, RAIL_LOST] ++ (List.range 8).flatMap (fun b => [BANK_V b, BANK_PGOOD b])

/-- The halt monitor. -/
def haltFields : List Field := [HALT_DISC, HALT_A, HALT_B, HALT_DISC_LATCH, HALT_RUN_BLOCKED, HALT_MISMATCH, HALT_LAST_US]

/-- Fields that a device reset keeps. -/
def keptFields : List Field :=
  causeFields ++ [STRAP_FILTER, STRAP_RESTART, FAULT_CODE, FAULT_CYCLE, FAULT_LOC, RATE_ADJ] ++ haltFields ++ senseFields

/-- Gander's own fields, which STANDBY keeps as well. -/
def ganderFields : List Field :=
  [WDOG_PERIOD, WDOG_LEFT, ALARM, ALARM_CAUSE, ALARM_CLASS, ALARM_PARTITION, ALARM_STACK, ALARM_CYCLE, ALARM_LINE, ALARM_COUNT]
    ++ (List.range 32).flatMap (fun k => [KS_VALID k, KS_WRAPPED k, KS_PARTITION k, KS_IMAGE_LO k, KS_IMAGE_HI k])

def sensorFields : List Field := (List.range 5).map TJ

/-- The register table with the listed fields only. -/
def onlyFields (s : State) (fs : List Field) : Map Nat := s.regs.filter (fun e => fs.any (fun f => f.key == e.1))

/-- Everything outside the always-on domain is lost; `keep`: the fields that stay. A sector that was being programmed fails its
checks. Both Mule pairs go to their self-test. -/
def wipe (s : State) (keep : List Field) (boot : Boot) : State :=
  let s1 := { State.reset with
    regs := onlyFields s keep
    eng := { Engine.reset with clusterOff := s.eng.clusterOff }
    time := { TimeState.reset with sec := s.time.sec, ns := s.time.ns, frac := s.time.frac, periods := s.time.periods, disagree := s.time.disagree }
    nv := { s.nv with commit := none, good := s.nv.good && s.nv.commit.isNone }
    taf := { Adapter.reset with pins := s.taf.pins }
    pw := { Power.reset with boot := boot, resetDue := s.pw.resetDue, noClock := s.pw.noClock, perst := s.pw.perst,
                             wdogOn := false, jtag := s.pw.jtag }
    host := s.host, free := s.free, readData := s.readData, pending := s.pending }
  setFs s1 [(PWR_STATE, 1), (PAIR_A, 2), (PAIR_B, 2)]

/-- Bits of RST_CAUSE are set. -/
def setCauses (s : State) (mask : Nat) : State :=
  (List.range 7).foldl (fun a k => if bitOf mask k then setF a (causeFields.getD k RST_POR) 1 else a) s

/-! ## Device resets (R510 to R514) -/

def rcPin : Nat := 2
def rcCmd : Nat := 4
def rcWdog : Nat := 8
def rcRail : Nat := 16
def rcTherm : Nat := 32

/-- A device reset is taken, or merged with the one in progress, the power-on reset among them (R513). -/
def takeReset (s : State) (mask : Nat) : State :=
  if s.pw.boot = .off then s
  else if s.pw.boot = .hold then setCauses s mask
  else
    let held := decide (bitOf mask 4 = true) || (s.pw.railHeld && s.pw.boot == .reset)
    let s1 := if s.pw.boot = .reset then s else wipe s keptFields .reset
    setPw (setCauses s1 mask) (fun w => { w with railHeld := held })

/-- A device-scope reset arrives: in the option-load phase under DEFER it is held pending (R512), and after a thermal trip only RESET_N
leads on (R520). -/
def arriveReset (s : State) (mask : Nat) : State :=
  if s.pw.boot = .tripped then s
  else if s.pw.boot = .optionLoad ∧ ¬ flag s STRAP_RESTART then setPw s (fun w => { w with deferred := w.deferred ||| mask })
  else takeReset s mask

/-- The RESET_N filter in nanoseconds (R511). -/
def filterNs (s : State) : Nat := if getF s STRAP_FILTER = 0 then 1000 else if getF s STRAP_FILTER = 1 then 10000 else 100000

/-- Every sensor reads below 100 °C. -/
def coolEnough (s : State) : Bool := (List.range 5).all (fun k => decide (signedOf 16 (getF s (TJ k)) < 1000))

/-- A pulse on RESET_N that passes the filter. THERM_TRIP_N is released by it once every sensor is cool (R520). -/
def resetPin (s : State) : State :=
  if s.pw.boot = .tripped then (if coolEnough s then takeReset s (rcPin + rcTherm) else s) else arriveReset s rcPin

/-- RESET_N: the pin has been low for `ns`; between 0.9 and 1.1 times the filter the outcome is open (R511). -/
def execResetN (ns : BitVec 32) (s : State) : Host.Outcome State Fault Refusal :=
  let n := ns.toNat * 10
  if n < 9 * filterNs s then .next s
  else if 11 * filterNs s < n then .next (resetPin s)
  else .next (if Config.freeValue 1 s.free = 1 then resetPin (drawFree s) else drawFree s)

/-- RESET_RELEASE: the hold ends, and the bring-up goes on from step 3; a hold for RAIL lasts until the rails are good (R504,
R515). -/
def execResetRelease (s : State) : Host.Outcome State Fault Refusal :=
  if s.pw.boot = .reset ∧ (s.pw.railHeld = false ∨ railsIdle s = true) then
    .next (setPw s (fun w => { w with boot := .steps, railHeld := false }))
  else .next s

/-- DEVICE_RESET_BEGIN: 10 µs after the OK reply (R465, R510). -/
def execDeviceResetBegin (s : State) : Host.Outcome State Fault Refusal :=
  if s.pw.resetDue then .next (arriveReset (setPw s (fun w => { w with resetDue := false })) rcCmd) else .next s

/-! ## Power on and rails (R503, R504, R510) -/

/-- VSTBY is lost: OFF. -/
def powerOff (s : State) : State :=
  let s1 := wipe s senseFields .off
  setFs { (setPw s1 (fun w => { w with resetDue := false })) with time := .reset } [(PWR_STATE, 0), (RAIL_LOST, 0), (RST_POR, 0)]

/-- RAIL_GOOD: a rail has become good; a VIO_TAF bank at `volt` as BANK_V codes it (R523). VSTBY starts the bring-up. -/
def execRailGood (rail : BitVec 5) (volt : BitVec 2) (s : State) : Host.Outcome State Fault Refusal :=
  let k := rail.toNat
  if 23 ≤ k then .next s
  else if k = 22 then
    if s.pw.boot = .off then .next (setPw (putBit (setF s RST_POR 1) RAIL_PGOOD 22 true) (fun w => { w with boot := .hold }))
    else .next s
  else if 14 ≤ k then
    let good := volt != 0
    .next (setFs (putBit s RAIL_PGOOD k good) [(BANK_V (k - 14), volt.toNat), (BANK_PGOOD (k - 14), good.toNat)])
  else .next (putBit s RAIL_PGOOD k true)

/-- RAIL_LOSS: a rail is lost: recorded; VSTBY takes everything, a bank its pins, a rail that the power state requires is a device
reset with cause RAIL. -/
def execRailLoss (rail : BitVec 5) (s : State) : Host.Outcome State Fault Refusal :=
  let k := rail.toNat
  if 23 ≤ k then .next s
  else if k = 22 then .next (powerOff (putBit s RAIL_PGOOD 22 false))
  else
    let s1 := putBit (putBit s RAIL_PGOOD k false) RAIL_LOST k true
    if 14 ≤ k then .next (setFs s1 [(BANK_V (k - 14), 0), (BANK_PGOOD (k - 14), 0)])
    else if s.pw.boot = .up ∧ 2 ≤ getF s PWR_STATE then .next (takeReset s1 rcRail)
    else .next s1

/-- STRAP_LATCH: the hold of 1 ms ends, the straps are latched, and the always-on blocks start (R511, R515 steps 1 and 2). -/
def execStrapLatch (cfg : BitVec 3) (s : State) : Host.Outcome State Fault Refusal :=
  if s.pw.boot = .hold then
    .next (setFs (setPw s (fun w => { w with boot := .steps }))
      [(STRAP_FILTER, cfg.toNat % 4), (STRAP_RESTART, cfg.toNat / 4), (PWR_STATE, 1)])
  else .next s

/-! ## Option words in force (R236, R237) -/

/-- A field of one byte whose reserved bits (those of `mask`) must be 0, else its default. -/
def cleanByte (m : Map Byte) (a mask : Nat) : Map Byte :=
  if (optByte m a).toNat &&& mask = 0 then m else setOptByte m a (optDefault a)

/-- A field of `n` bytes clamped to a range. -/
def clampField (m : Map Byte) (a n lo hi : Nat) : Map Byte := setOptList m a (leBytes n (clampTo lo hi (optField m a n)))

/-- A byte that holds a signed number, clamped. -/
def clampSigned (m : Map Byte) (a : Nat) (lo hi : Int) : Map Byte :=
  setOptByte m a (BitVec.ofNat 8 (patternOf 8 (max lo (min hi (signedOf 8 (optByte m a).toNat)))))

/-- Stored option words with every field in its range. -/
def normalWords (m0 : Map Byte) : Map Byte :=
  let m1 := if optField m0 0x006 2 < 512 then m0 else setOptList m0 0x006 [0, 0]
  let m2 := cleanByte (cleanByte (cleanByte m1 0x008 0x80) 0x009 0xE0) 0x00A 0xF0
  let m3 := clampField (clampField m2 0x00C 2 250 1200) 0x010 4 9600 3000000
  (List.range 96).foldl (fun m n =>
    let a := 0x180 + 4 * n
    clampField (clampSigned (clampSigned (clampField m a 1 0 10) (a + 1) (-30) 0) (a + 2) (-25) 0) (a + 3) 1 0 40) m3

/-- The option words that a boot copy puts in force. -/
def bootWords (s : State) : Map Byte := if s.nv.good then normalWords s.nv.words else []

/-- The registers that take their values from the option words (R236). -/
def applyWords (s0 : State) : State :=
  let m := bootWords s0
  let s := { s0 with nv := { s0.nv with inForce := m, image := if s0.nv.good then s0.nv.words else [], mgmtKey := optList m 0x040 32 } }
  let flags := (optByte m 0x009).toNat
  let mhz := max 250 (min (optField m 0x00C 2) (maxMhz s))
  let s1 := setFs s [(OPT_DEFAULT, (!s.nv.good).toNat), (DEV_ID, optField m 0x006 2), (BOOT_STATE, bitsOf flags 0 1),
    (JTAG_DEBUG, bitsOf flags 1 1), (FB_EN, bitsOf flags 2 1), (FB_OE, bitsOf flags 3 1), (TRC_MULE_EN, (optByte m 0x00A).toNat),
    (STEP_MHZ_REQ, mhz), (STEP_MHZ_NOW, mhz), (UART_BAUD, optField m 0x010 4)]
  let s2 := setPw s1 (fun w => { w with avsGoal := mhz })
  let s3 := (List.range 96).foldl (fun a n => setF a (FEC_REQ n) (bitsOf (optField m 0x160 12) n 1)) s2
  let s4 := (List.range 96).foldl (fun a n =>
    let v := (optByte m (0x100 + n)).toNat
    setLaneCtrl a n (bitOf v 7) (v % 128)) s3
  if bitOf flags 4 then enableTrace s4 else s4

/-! ## The boot copy and the end of the bring-up (R237, R475, R515) -/

/-- The bytes of a firmware bank: false A, true B. -/
def bankBytes (s : State) (b : Bool) : List Byte := rdList s.nv.banks (if b then bankSize else 0) bankSize

/-- The bank that boots: the active one if it verifies, else the other one; `none`: both fail. -/
def bootBank (s : State) : Option Bool :=
  let a := activeBank s
  if Config.bankGood (bankBytes s a) then some a else if Config.bankGood (bankBytes s (!a)) then some (!a) else none

/-- Pair A starts as ACTIVE unless it fails its self-test; 0 STANDBY, 1 ACTIVE, 3 DISABLED. -/
def startPairs (s : State) (passA passB : Bool) : State :=
  setFs s [(ACTIVE_PAIR, (!passA).toNat), (PAIR_A, if passA then 1 else 3), (PAIR_B, if passB then (if passA then 0 else 1) else 3)]

/-- Mule starts on a bank: the option words come into force, and the watchdog counts. -/
def startMule (s : State) (b : Bool) (passA passB : Bool) : State :=
  let s1 := setFs (startPairs s passA passB) [(BOOT_BANK, b.toNat), (FALLBACK, (b != activeBank s).toNat), (NEXT_BANK, (activeBank s).toNat),
    (FW_VERSION, (Config.fwVersion (bankBytes s b)).toNat), (FW_LEVEL, (Config.fwLevel (bankBytes s b)).toNat),
    (SYS_LEVEL, (Config.fwLevel (bankBytes s b)).toNat), (WDOG_LEFT, getF s WDOG_PERIOD)]
  applyWords (setPw s1 (fun w => { w with boot := .started, wdogOn := true, wdogWarned := false }))

/-- The option-load phase ends: a reset held pending is taken now (R512). -/
def endOptionLoad (s : State) (passA passB : Bool) : State :=
  if s.pw.deferred ≠ 0 then takeReset (setPw s (fun w => { w with deferred := 0 })) s.pw.deferred
  else
    match bootBank s with
    | none => startPairs (setPw s (fun w => { w with boot := .recovery })) passA passB
    | some b => startMule s b passA passB

/-- Bytes of the NV area of the default personality (R235). -/
def personalitySize : Nat := 0x380000

/-- FABRIC frames from offset `o` up to the authentication block, and where that begins; `none`: something else stands there. -/
def personalityFrames (b : Nat → Byte) : Nat → Nat → Option (List FrameH × Nat)
  | 0, _ => none
  | n + 1, o =>
    let f := frameAt b o
    if numAt b o 4 = 0x48545541 then some ([], o)
    else if f.kind = 4 ∧ frameGood f personalitySize then (personalityFrames b n (o + 16 + f.len)).map (fun x => (f :: x.1, x.2))
    else none

/-- The authentication block at `a` carries the owner's signature over the frames before it; `key`: the owner's public key as the boot
ROM finds it, which the owner key hash must name (R217, R237). -/
def personalityGood (s : State) (key : List Byte) (b : Nat → Byte) (a : Nat) : Bool :=
  let hash := optList s.nv.inForce 0x060 48
  decide (a + 0xB0 ≤ personalitySize) && numAt b (a + 8) 1 == 1 && listAt b (a + 0x20) 48 == hash && Crypto.sha384 key == hash
    && Crypto.ecdsaGood key (Crypto.sha384 (listAt b 0 (a + 0x20))) (listAt b (a + 0x50) 96)

/-- The frames of the default personality; `none`: absent, or not verified. -/
def personalityItems (s : State) (key : List Byte) : Option (List Item) :=
  let b := rdByte s.nv.personality
  match personalityFrames b (personalitySize / 24 + 1) 0 with
  | some x => if personalityGood s key b x.2 then some (x.1.map (fun f => .fabric f.off f.col f.addr f.len)) else none
  | none => none

/-- The default personality is staged in the scratchpad banks 48 to 63 and configured from there. -/
def configurePersonality (s : State) (l : List Item) : State :=
  let s1 := { s with sp := wrList s.sp fabricBank (fabricPayload (rdByte s.nv.personality) l) }
  clearBanks (releaseFabric { s1 with taf := { s1.taf with cfg := fabricConfig s1.sp l fabricBank [] } })

/-- The default personality is configured and the outputs enabled, or the fabric stays cleared; the banks that staged it are zeroed,
and the scratchpad banks of the option words go to the host (R237 steps 4 and 5, R484). -/
def endBootCopy (s : State) (key : List Byte) : State :=
  let s1 :=
    match personalityItems s key with
    | some l => setFabOe (configurePersonality s l) true
    | none => setFs s [(TAF_DEFAULT_FAIL, 1), (CFG_ERR, 1)]
  let mask := optField s.nv.inForce 0x020 8
  let s2 := (List.range 64).foldl (fun a b => if bitOf mask b then setF a (SP_BANK_OWNER b) 1 else a) s1
  setPw s2 (fun w => { w with boot := .copied })

/-- BOOT_COPY in three stages: 0 the option-load phase begins; 1 it ends, with the outcome of the pairs' self-tests; 2 the default
personality is staged and configured, with the owner's public key as the boot ROM finds it. Each waits for the rails and the clock that it needs (R515, R531). -/
def execBootCopy (stage : BitVec 2) (passA passB : Bool) (ownerKey : List Byte) (s : State) : Host.Outcome State Fault Refusal :=
  if stage = 0 then
    (if s.pw.boot = .steps ∧ railGood s 8 ∧ hubClock s then .next (setPw s (fun w => { w with boot := .optionLoad })) else .next s)
  else if stage = 1 then
    (if s.pw.boot = .optionLoad ∧ hubClock s then .next (endOptionLoad s passA passB) else .next s)
  else if stage = 2 then
    (if s.pw.boot = .started ∧ railsIdle s ∧ hubClock s then .next (endBootCopy s ownerKey) else .next s)
  else .next s

/-- STANDBY is entered: every island off; Gander and its watchdog, which goes on counting (R30, R478), the key slots, RST_CAUSE, the
fault record, the halt monitor and the time counter stay (R507). -/
def enterStandby (s : State) : State :=
  let s1 := wipe s (keptFields ++ ganderFields) .standby
  { s1 with sec := { SecState.reset with root := s.sec.root },
            pw := { s1.pw with wdogOn := s.pw.wdogOn, wdogWarned := s.pw.wdogWarned, wdogExpired := s.pw.wdogExpired },
            ctl := { Ctl.reset with smbusIn := s.ctl.smbusIn, smbusOut := s.ctl.smbusOut, smbusPos := s.ctl.smbusPos } }

/-- BRING_UP_COMPLETE: IDLE, and from there STANDBY when BOOT_STATE is 0 (R515 step 14). -/
def execBringUpComplete (s : State) : Host.Outcome State Fault Refusal :=
  if s.pw.boot = .copied ∧ railsIdle s ∧ hubClock s then
    let s1 := raiseEv (setF (setPw s (fun w => { w with boot := .up })) PWR_STATE 2) evPowerState
    .next (if flag s BOOT_STATE then s1 else enterStandby s1)
  else .next s

/-! ## The watchdog (R478, R516) -/

/-- The watchdog counts. -/
def wdogRuns (s : State) : Bool := s.pw.wdogOn && !s.pw.wdogExpired

/-- The count is restarted. -/
def kickWdog (s : State) : State := setPw (setF s WDOG_LEFT (getF s WDOG_PERIOD)) (fun w => { w with wdogWarned := false })

/-- WDOG_KICK: Mule's active pair writes it. -/
def execWdogKick (s : State) : Host.Outcome State Fault Refusal := if wdogRuns s ∧ muleUp s then .next (kickWdog s) else .next s

/-- WDOG_WARN: half the period has passed without a kick. -/
def execWdogWarn (s : State) : Host.Outcome State Fault Refusal :=
  if wdogRuns s ∧ ¬ s.pw.wdogWarned then
    .next (raiseEv (setPw (setF s WDOG_LEFT (getF s WDOG_PERIOD / 2)) (fun w => { w with wdogWarned := true })) evWdogWarn)
  else .next s

/-- Gander stops the step clock: no commit, not even one in progress; the fault record, and FAULT_NOTICE on every UP trunk. -/
def expireWdog (s : State) : State :=
  let s1 := recordFault (setF s WDOG_LEFT 0) fcWatchdog (locDevice s)
  let s2 := { (setFlag s1 IN_COMMIT false) with cyc := { s1.cyc with waiting := [] } }
  faultStop (setPw s2 (fun w => { w with wdogExpired := true }))

/-- WATCHDOG: the count reaches 0. -/
def execWatchdog (s : State) : Host.Outcome State Fault Refusal :=
  if wdogRuns s ∧ s.pw.wdogWarned then .next (expireWdog s) else .next s

/-- WATCHDOG_RESET: 100 µs after the expiry. -/
def execWatchdogReset (s : State) : Host.Outcome State Fault Refusal :=
  if s.pw.wdogExpired then .next (arriveReset s rcWdog) else .next s

/-! ## Temperature (R519, R520) -/

/-- THERM_TRIP_N is asserted: the clocks stop with no commit, and nothing but RESET_N leads on; what the reset would clear is cleared
at once. -/
def tripThermal (s : State) : State := wipe s (keptFields ++ sensorFields) .tripped

/-- THERMAL_SAMPLE: what the five dies report, in tenths of a degree (R519 to R521). -/
def execThermalSample (t0 t1 t2 t3 t4 : BitVec 16) (s : State) : Host.Outcome State Fault Refusal :=
  let l := [t0, t1, t2, t3, t4]
  if s.pw.boot = .off ∨ s.pw.boot = .hold then .next s
  else
    let s1 := setFs s [(TJ 0, t0.toNat), (TJ 1, t1.toNat), (TJ 2, t2.toNat), (TJ 3, t3.toNat), (TJ 4, t4.toNat)]
    if s.pw.boot = .tripped then .next s1
    else if 1150 ≤ hottest l then .next (tripThermal s1)
    else if s.pw.boot = .up then .next (throttleSample s1 (hottest l))
    else if s.pw.boot = .standby then .next s
    else .next s1

/-! ## PERST_N, reference clocks and the TAP (R510, R527, R531) -/

/-- The PCIe block and the host-side state are reset, as by an FLR of every function. -/
def pcieReset (s : State) : State :=
  let s1 := (List.range 17).foldl flrOne s
  { s1 with ctl := { s1.ctl with msixMask := [], msixPba := [] } }

/-- PERST_N is asserted. -/
def execPerstN (s : State) : Host.Outcome State Fault Refusal := .next (setPw (pcieReset s) (fun w => { w with perst := true }))

/-- PERST_N_RELEASE: 20 ms after PERST_N and the hub rails the link answers. -/
def execPerstNRelease (s : State) : Host.Outcome State Fault Refusal :=
  if railGood s 8 then .next (setPw s (fun w => { w with perst := false })) else .next s

/-- REFCLK_LOSS of clock 0 HUB, 1 + k LINK_k, 7 PCIE, 8 ETH. Lanes of a lost link clock fail; a lost PCIe clock acts as PERST_N; a lost
Ethernet clock takes the grandmaster from a Rooster. -/
def execRefclkLoss (clk : BitVec 4) (s : State) : Host.Outcome State Fault Refusal :=
  let k := clk.toNat
  if 9 ≤ k ∨ mget s.pw.noClock false k then .next s
  else
    let s1 := setPw s (fun w => { w with noClock := mset w.noClock false k true })
    if k = 7 then .next (pcieReset s1)
    else if k = 8 then .next (if extRooster s1 ∧ getF s1 TSTATE = tsLocked then setTstate s1 tsHoldover else s1)
    else if k = 0 then .next s1
    else .next ((List.range 16).foldl (fun a i => failLane a ((k - 1) * 16 + i) 1) s1)

/-- REFCLK_RETURN. -/
def execRefclkReturn (clk : BitVec 4) (s : State) : Host.Outcome State Fault Refusal :=
  if 9 ≤ clk.toNat then .next s else .next (setPw s (fun w => { w with noClock := mset w.noClock false clk.toNat false }))

/-- JTAG_INSTRUCTION: a new TAP instruction takes effect; the TAP is supplied by VIO. -/
def execJtagInstruction (ir : Byte) (s : State) : Host.Outcome State Fault Refusal :=
  if railGood s 13 then .next (setPw s (fun w => { w with jtag := ir })) else .next s

/-- What the TAP shifts out under IDCODE, the instruction at its reset (R527). -/
def idcode (s : State) : Nat :=
  (4 * (getF s DEV_STEPPING / 16) + getF s DEV_STEPPING % 16) % 16 * 2 ^ 28 + 0x5396 * 2 ^ 12 + 0x2B5 * 2 + 1

/-! ## Open-drain outputs (R227, R434, R493, R520, R524) -/

/-- The outputs that VIO supplies follow the device: neither the TAP takes them, nor has the device tripped. -/
def pinsLive (s : State) : Bool := railGood s 13 && !tapTakes s && s.pw.boot != .tripped

/-- The pins are driven low. -/
def eventLow (s : State) : Bool := pinsLive s && eventPin s
def cfgErrLow (s : State) : Bool := pinsLive s && flag s CFG_ERR
def secAlarmLow (s : State) : Bool := pinsLive s && flag s ALARM && flag s PIN_EN
def thermTripLow (s : State) : Bool := s.pw.boot == .tripped

/-- JTAG debug access is open: DEBUG while the option word JTAG_DEBUG is 1; else the instruction acts as BYPASS (R437, R527). -/
def debugOpen (s : State) : Bool := s.pw.jtag == 0x20 && flag s JTAG_DEBUG

end Sys2Proof.Machine
end

