-- ==== Sys2Proof/Machine/Control.lean ====
section
/-!
DEFINITION. The control fabric and its commands (R464, R465, R473 to R483, R495, R506, R517, R518): identity, power and test commands,
fences and resets of one block, the Mule pairs, ring tags and the console.
-/
namespace Sys2Proof.Machine
open Sys2Proof Reg

/-! ## Identity (R464) -/

/-- ID_GET. -/
def cmdIdGet : Cmd where
  opcode := 0x0101
  ringsOnly := false
  length := lenIs 0
  scope := .plain
  right := anyPart
  params := noParams
  ready := always
  run := fun s _ _ =>
    okReply s (leBytes 1 (getF s DEV_GRADE) ++ leBytes 1 (getF s DEV_STEPPING) ++ leBytes 2 (getF s DEV_ID) ++ leBytes 1 (getF s FW_LEVEL)
      ++ leBytes 1 (getF s BOOT_BANK) ++ leBytes 1 (runState s) ++ leBytes 1 (getF s PWR_STATE) ++ leBytes 4 (getF s FW_VERSION)
      ++ leBytes 4 0 ++ leBytes 4 (getF s SERIAL_LO) ++ leBytes 4 (getF s SERIAL_HI))

def execIdGet (r : BitVec 5) (p : Packet) (s : State) : Host.Outcome State Fault Refusal := fromRing cmdIdGet r p s

/-- CLUSTER_MAP_GET. -/
def cmdClusterMapGet : Cmd where
  opcode := 0x0102
  ringsOnly := false
  length := lenIs 8
  scope := .plain
  right := anyPart
  params := fun _ q _ => decide (par q 0 1 < 4) && zeroPar q 1 7
  ready := always
  run := fun s q _ => okReply s ((List.range 64).map (fun i => BitVec.ofNat 8 (clusterByte s (64 * par q 0 1 + i))))

def execClusterMapGet (r : BitVec 5) (p : Packet) (s : State) : Host.Outcome State Fault Refusal := fromRing cmdClusterMapGet r p s

/-- FAULT_GET. -/
def cmdFaultGet : Cmd where
  opcode := 0x0103
  ringsOnly := false
  length := lenIs 0
  scope := .plain
  right := onlyZero
  params := noParams
  ready := always
  run := fun s _ _ =>
    okReply s (leBytes 2 (getF s FAULT_CODE) ++ leBytes 6 (getF s FAULT_CYCLE) ++ leBytes 8 (getF s FAULT_LOC)
      ++ leBytes 4 (getF s FAULT_OVERFLOW) ++ leBytes 4 0)

def execFaultGet (r : BitVec 5) (p : Packet) (s : State) : Host.Outcome State Fault Refusal := fromRing cmdFaultGet r p s

/-- MGMT_KEY_SET: the key is in force at once, and its commit begins (R239). -/
def cmdMgmtKeySet : Cmd where
  opcode := 0x0104
  ringsOnly := true
  length := lenIs 32
  scope := .plain
  right := onlyZero
  params := noParams
  ready := fun s _ _ => busyUnless s.nv.commit.isNone
  run := fun s q _ =>
    okReply { s with nv := { s.nv with mgmtKey := q.params, image := sealOptions (setOptList s.nv.image 0x040 q.params), commit := some 0 } } []

def execMgmtKeySet (r : BitVec 5) (p : Packet) (s : State) : Host.Outcome State Fault Refusal := fromRing cmdMgmtKeySet r p s

/-- ECHO. -/
def cmdEcho : Cmd where
  opcode := 0x0105
  ringsOnly := false
  length := fun _ _ => true
  scope := .plain
  right := onlyZero
  params := fun _ q _ => decide (q.length ≤ 112)
  ready := always
  run := fun s q _ => okReply s q.params

def execEcho (r : BitVec 5) (p : Packet) (s : State) : Host.Outcome State Fault Refusal := fromRing cmdEcho r p s

/-! ## Power (R465, R506) -/

/-- The move that POWER_SET asks for; after its OK. -/
def powerMove (st : Nat) (s : State) : State :=
  if st = 1 then (if s.pw.boot = .up then enterStandby s else s)
  else if s.pw.boot = .standby then setPw s (fun w => { w with boot := .steps })
  else s

/-- POWER_SET. -/
def cmdPowerSet : Cmd where
  opcode := 0x0201
  ringsOnly := false
  length := lenIs 8
  scope := .plain
  right := onlyZero
  params := fun _ q _ => (par q 0 1 == 1 || par q 0 1 == 2) && zeroPar q 1 7
  ready := fun s q _ =>
    busyUnless (runState s == stIdle && (s.pw.boot == .up || s.pw.boot == .standby) && (par q 0 1 == 1 || s.pw.boot == .up || railsIdle s))
  run := fun s q _ => .after s (powerMove (par q 0 1))

def execPowerSet (r : BitVec 5) (p : Packet) (s : State) : Host.Outcome State Fault Refusal := fromRing cmdPowerSet r p s

/-- STEP_CLOCK_SET. -/
def cmdStepClockSet : Cmd where
  opcode := 0x0204
  ringsOnly := false
  length := lenIs 8
  scope := .plain
  right := onlyZero
  params := fun s q _ => decide (250 ≤ par q 0 2) && decide (par q 0 2 ≤ maxMhz s) && zeroPar q 2 6
  ready := always
  run := fun s q _ => okReply (setStepReq s (par q 0 2)) []

def execStepClockSet (r : BitVec 5) (p : Packet) (s : State) : Host.Outcome State Fault Refusal := fromRing cmdStepClockSet r p s

/-- POWER_STATUS; the power drawn is a free value. -/
def cmdPowerStatus : Cmd where
  opcode := 0x0205
  ringsOnly := false
  length := lenIs 0
  scope := .plain
  right := anyPart
  params := noParams
  ready := always
  run := fun s _ _ =>
    okReply (drawFree s) ((List.range 5).flatMap (fun k => leBytes 2 (getF s (TJ k))) ++ leBytes 2 (Config.freeValue 16 s.free).toNat
      ++ leBytes 2 (getF s STEP_MHZ_NOW) ++ leBytes 1 (getF s THROTTLING) ++ leBytes 1 (getF s PWR_STATE) ++ leBytes 4 0)

def execPowerStatus (r : BitVec 5) (p : Packet) (s : State) : Host.Outcome State Fault Refusal := fromRing cmdPowerStatus r p s

/-! ## Ring tags (R480 to R482) -/

/-- Put the tags in quarantine; TAGS_QUAR counts them. -/
def setQuar (s : State) (m : Map (BitVec 2)) : State := setF { s with ring := { s.ring with quar := m } } TAGS_QUAR m.length

/-- A tag enters quarantine with its generation; it leaves. -/
def quarTag (s : State) (tag : Nat) (gen : BitVec 2) : State := setQuar s (mins (mdel s.ring.quar tag) tag gen)
def freeTag (s : State) (tag : Nat) : State := setQuar s (mdel s.ring.quar tag)

def quarTags (s : State) : List (BitVec 14 × BitVec 2) → State
  | [] => s
  | (t, g) :: r => quarTags (quarTag s t.toNat g) r

/-- The generation with which a tag is quarantined. -/
def quarGen (s : State) (tag : Nat) : Option (BitVec 2) := (s.ring.quar.find? (fun e => e.1 == tag)).map Prod.snd

/-- RING_TIMEOUT: an initiator (0 Mule, 1 PCIe, 2 a die controller, 3 the engines) has no completion in time. A host access ends with
Completer Abort and BAR0_ERR TIMEOUT; a Mule command, named by its ring and TAG, ends with TIMEOUT. -/
def execRingTimeout (who : BitVec 2) (tag : BitVec 14) (gen : BitVec 2) (cmd : Option (BitVec 5 × BitVec 16)) (s : State) :
    Host.Outcome State Fault Refusal :=
  if (quarGen s tag.toNat).isSome then .next s
  else
    let s1 := quarTag (addF s RING_TIMEOUTS 1) tag.toNat gen
    let s2 := if who = 1 then setF s1 BAR0_ERR 2 else s1
    match cmd with
    | some (r, t) =>
      let ids := (s2.ctl.calls.filter (fun c => c.via == .ring r.toNat && c.tag == t.toNat)).map (fun c => c.id)
      .next (if who = 0 then finalReplies s2 rsTimeout [] ids else s2)
    | none => .next s2

/-- LATE_COMPLETION: the completion of a quarantined tag frees it; one of a stale generation is only counted. -/
def execLateCompletion (tag : BitVec 14) (gen : BitVec 2) (s : State) : Host.Outcome State Fault Refusal :=
  let s1 := addF s LATE_COMPLETION 1
  if quarGen s tag.toNat = some gen then .next (raiseEv (freeTag s1 tag.toNat) evLateCompletion) else .next s1

/-- QUARANTINE_EXPIRY: four timeout periods have passed. -/
def execQuarantineExpiry (tag : BitVec 14) (s : State) : Host.Outcome State Fault Refusal := .next (freeTag s tag.toNat)

/-! ## Fences (R483) -/

/-- The block that SCOPE names. -/
def scBlock (q : Request) (id : Nat) : BlockTask :=
  if scLevel q = 1 then ⟨id, true, scDie q⟩ else ⟨id, false, scDie q * 32 + scTile q⟩

/-- A task stands on a block. -/
def onBlock (x : BlockTask) (die : Bool) (k : Nat) : Bool := x.die == die && x.index == k

/-- The tasks of a block and the others. -/
def tasksOn (l : List BlockTask) (die : Bool) (k : Nat) : List BlockTask := l.filter (fun x => onBlock x die k)
def tasksOff (l : List BlockTask) (die : Bool) (k : Nat) : List BlockTask := l.filter (fun x => !onBlock x die k)

/-- The ring map marks a stop fenced, or clears the mark. -/
def markFenced (s : State) (die : Bool) (k : Nat) (b : Bool) : State :=
  if die then setFlag s (DIE_FENCED k) b else tileStatus s k [(TILE_FENCED k, b.toNat)]

/-- FENCE. -/
def cmdFence : Cmd where
  opcode := 0x0203
  ringsOnly := false
  length := lenIs 8
  scope := .block
  right := onlyZero
  params := fun _ q _ => (scLevel q == 1 || scLevel q == 2) && decide (1 ≤ par q 0 4) && decide (par q 0 4 ≤ 1000000) && zeroPar q 4 4
  ready := fun s q _ => busyUnless (tasksOn s.ring.fences (scBlock q 0).die (scBlock q 0).index).isEmpty
  run := fun s q _ => .pending s (fun a id => { a with ring := { a.ring with fences := a.ring.fences ++ [scBlock q id] } })

def execFence (r : BitVec 5) (p : Packet) (s : State) : Host.Outcome State Fault Refusal := fromRing cmdFence r p s

/-- The fence of a block ends: the mark is set, and its command replies. -/
def endFence (s : State) (die : Bool) (k status : Nat) : State :=
  let ids := (tasksOn s.ring.fences die k).map (fun x => x.call)
  let s1 := { s with ring := { s.ring with fences := tasksOff s.ring.fences die k } }
  finalReplies (markFenced s1 die k true) status [] ids

/-- A fence of the block is under way. -/
def fencing (s : State) (die : Bool) (k : Nat) : Bool := !(tasksOn s.ring.fences die k).isEmpty

/-- FENCE_ACK: nothing is outstanding at the stop of a compute die or of a device tile. -/
def execFenceAck (die : Bool) (index : BitVec 7) (s : State) : Host.Outcome State Fault Refusal :=
  if fencing s die index.toNat then .next (endFence s die index.toNat rsOk) else .next s

/-- FENCE_FORCED: the drain limit passes first; `tags`: those of the block's own requests, abandoned. -/
def execFenceForced (die : Bool) (index : BitVec 7) (tags : List (BitVec 14 × BitVec 2)) (s : State) :
    Host.Outcome State Fault Refusal :=
  if fencing s die index.toNat then
    .next (endFence (raiseEv (addF (quarTags s tags) FENCE_FORCED 1) evFenceForced) die index.toNat rsTimeout)
  else .next s

/-! ## Resetting a die or a tile (R465, R514, R517, R518) -/

/-- The tiles of a block. -/
def blockTiles (die : Bool) (k : Nat) : List Nat := if die then (List.range 32).map (fun i => k * 32 + i) else [k]

/-- Forced words of a tile leave the patch table. -/
def dropForced (s : State) (t : Nat) : State :=
  let keep := fun (f : Forced) => { f with words := f.words.filter (fun w => w.key / 131072 / 16 != t) }
  { s with ctl := { s.ctl with forced := (s.ctl.forced.map keep).filter (fun f => !f.words.isEmpty) } }

/-- A tile is reset: arrays and registers are cleared; owner, gating, fence mark and assignment stay, and it counts as not loaded. -/
def resetTile (s : State) (t : Nat) : State :=
  let s1 := dropForced (clearTile (endTileRequests s [t] 16 rsBusy) t) t
  let s2 := setEng s1 (fun e => { e with assigned := mset e.assigned false t (mget s.eng.assigned false t) })
  let keep := [(TILE_GATED t, getF s (TILE_GATED t)), (TILE_FENCED t, getF s (TILE_FENCED t)), (TILE_PARTITION t, getF s (TILE_PARTITION t)),
    (TILE_IN_RESET t, 1)]
  let s3 := setFs { s2 with regs := dropRange s2.regs (tileBase t * 8) (0x2000 * 8) } keep
  if flag s (TILE_IN_RESET t) then s3 else raiseEv s3 (tileEv t 3)

def resetTiles (s : State) : List Nat → State
  | [] => s
  | t :: r => resetTiles (resetTile s t) r

/-- The die's own registers, its deadlock report and its hub-bridge modules. -/
def resetDie (s : State) (d : Nat) : State :=
  let s1 := { s with regs := dropRange s.regs (dieBase d * 8) (0x200000 * 8) }
  let mods := (List.range 8).flatMap (fun i => [d * 8 + i, 32 + d * 8 + i])
  setFlag { s1 with cyc := { s1.cyc with report := dropRange s1.cyc.report (d * 1024) 1024 },
                    ex := { s1.ex with retrain := mods.foldl (fun m k => mset m false k true) s1.ex.retrain } }
    (DIE_FENCED d) (flag s (DIE_FENCED d))

/-- A die or tile reset begins. -/
def beginBlockReset (s : State) (x : BlockTask) : State :=
  let s1 := resetTiles (setF s RST_BLOCK 1) (blockTiles x.die x.index)
  let s2 := if x.die then resetDie s1 x.index else s1
  { s2 with ring := { s2.ring with resets := s2.ring.resets ++ [x] } }

/-- Some tile in the scope belongs to a partition that holds an image. -/
def scopeLoaded (s : State) (die : Bool) (k : Nat) : Bool :=
  (blockTiles die k).any (fun t => hasImage s (getF s (TILE_PARTITION t)))

/-- DEVICE_RESET. -/
def cmdDeviceReset : Cmd where
  opcode := 0x0202
  ringsOnly := false
  length := lenIs 8
  scope := .block
  right := onlyZero
  params := fun _ q _ => zeroPar q 0 8
  ready := fun s q _ =>
    busyUnless (scLevel q == 0 || !(runState s == stRunning && scopeLoaded s (scBlock q 0).die (scBlock q 0).index))
  run := fun s q _ =>
    if scLevel q = 0 then .after s (fun a => setPw a (fun w => { w with resetDue := true }))
    else .pending s (fun a id => beginBlockReset a (scBlock q id))

def execDeviceReset (r : BitVec 5) (p : Packet) (s : State) : Host.Outcome State Fault Refusal := fromRing cmdDeviceReset r p s

/-- Tiles leave reset; a gated one stays in it, and fenced. -/
def releaseTiles (s : State) : List Nat → State
  | [] => s
  | t :: r =>
    releaseTiles (if flag s (TILE_GATED t) then s else tileStatus s t [(TILE_IN_RESET t, 0), (TILE_FENCED t, 0)]) r

/-- BLOCK_RESET_COMPLETE: the block is out of reset, its stop releases its fence, and the command replies. -/
def execBlockResetComplete (die : Bool) (index : BitVec 7) (s : State) : Host.Outcome State Fault Refusal :=
  let k := index.toNat
  let ids := (tasksOn s.ring.resets die k).map (fun x => x.call)
  if ids.isEmpty then .next s
  else
    let s1 := releaseTiles { s with ring := { s.ring with resets := tasksOff s.ring.resets die k } } (blockTiles die k)
    .next (finalReplies (if die then setFlag s1 (DIE_FENCED k) false else s1) rsOk [] ids)

/-! ## Test commands (R473) -/

/-- MEM_TEST. -/
def cmdMemTest : Cmd where
  opcode := 0x0C01
  ringsOnly := false
  length := lenIs 8
  scope := .block
  right := onlyZero
  params := fun _ q _ => scLevel q == 2 && decide (par q 0 1 < 2) && zeroPar q 1 7
  ready := fun s q _ =>
    let t := scDie q * 32 + scTile q
    busyUnless (!(hasImage s (getF s (TILE_PARTITION t)) || flag s (TILE_GATED t) || portClosed s false t))
  run := fun s q _ =>
    .pending s (fun a id => { a with ring := { a.ring with tests := a.ring.tests ++ [(id, scDie q * 32 + scTile q, par q 0 1 == 1)] } })

def execMemTest (r : BitVec 5) (p : Packet) (s : State) : Host.Outcome State Fault Refusal := fromRing cmdMemTest r p s

/-- The on-die model memory of a tile is cleared. -/
def clearModel (s : State) (t : Nat) : State :=
  setEng s (fun e => { e with mem := zeroBytes e.mem (t * 3145728) 3145728, memErr := dropRange e.memErr (t * 393216) 393216 })

/-- MEM_TEST_COMPLETE: the oldest test of the tile ends; what was tested is left cleared. -/
def execMemTestComplete (tile : BitVec 7) (errors : BitVec 32) (first : BitVec 64) (s : State) : Host.Outcome State Fault Refusal :=
  match s.ring.tests.find? (fun x => x.2.1 == tile.toNat) with
  | none => .next s
  | some x =>
    let s1 := { s with ring := { s.ring with tests := s.ring.tests.erase x } }
    let s2 := if x.2.2 then clearModel s1 tile.toNat else clearTile s1 tile.toNat
    .next (finalReply s2 x.1 rsOk (leBytes 4 errors.toNat ++ leBytes 4 0 ++ leBytes 8 first.toNat))

/-- TARGET, BP, LC, step, port and address of ERR_INJECT. -/
def eiTarget (q : Request) : Nat := par q 0 1
def eiPort (q : Request) : Nat := bitsOf (par q 8 8) 40 8
def eiAddr (q : Request) : Nat := bitsOf (par q 8 8) 0 40

/-- The place that ERR_INJECT names exists: an instruction word of the LC, or a word of a bound port. -/
def eiOk (s : State) (q : Request) : Bool :=
  match findLc s (scPart q) (par q 2 2) with
  | none => false
  | some k =>
    let folded := foldedAt s (pcOf k)
    let t := tileOfPc (pcOf k)
    let p := physPort (halfB k) (eiPort q)
    if eiTarget q < 2 then decide (par q 1 1 < 64) && decide (par q 8 8 < if folded then 1024 else 2048)
    else par q 1 1 == 0 && decide (eiPort q < if folded then 16 else 32) && decide (par q 14 2 = 0)
      && (onDie s t p || getF s (MMP_BIND t p) == 2) && decide (eiAddr q ≤ getF s (MMP_DEPTH_M1 t p)) && inRange s t p (eiAddr q)

/-- The row, or the FAR line, that an error is put into: the first of the word. -/
def errKey (s : State) (t p w : Nat) : Nat := if onDie s t p then (rowsOf s t p w).headD 0 else farKey s t p w

/-- The stored word is altered. -/
def injectError (s : State) (q : Request) : State :=
  match findLc s (scPart q) (par q 2 2) with
  | none => s
  | some k =>
    let kind := eiTarget q % 2 + 1
    if eiTarget q < 2 then
      let key := wordKey (foldedAt s (pcOf k)) (pcOf k) (halfB k) (par q 1 1) (par q 8 8)
      setEng s (fun e => { e with imemErr := mset e.imemErr 0 key kind })
    else
      let key := errKey s (tileOfPc (pcOf k)) (physPort (halfB k) (eiPort q)) (eiAddr q)
      setEng s (fun e => { e with memErr := mset e.memErr 0 key kind })

/-- ERR_INJECT. -/
def cmdErrInject : Cmd where
  opcode := 0x0C02
  ringsOnly := false
  length := lenIs 16
  scope := .target
  right := fun s q r => r == 0 && !flag s (SEALED (scPart q))
  params := fun s q _ => decide (eiTarget q < 4) && zeroPar q 4 4 && eiOk s q
  ready := fun s q _ => busyUnless (!(match findLc s (scPart q) (par q 2 2) with | some k => portClosed s false (tileOfPc (pcOf k)) | none => false))
  run := fun s q _ => okReply (injectError s q) []

def execErrInject (r : BitVec 5) (p : Packet) (s : State) : Host.Outcome State Fault Refusal := fromRing cmdErrInject r p s

/-! ## The Mule pairs (R475, R476) -/

/-- The state of a pair: false A, true B. -/
def pairField (b : Bool) : Field := if b then PAIR_B else PAIR_A

/-- A miscompare of the active pair: its outputs are blocked, and it runs self-test. What it had not yet committed of the option image
and an SMBus packet partly assembled are lost; `tags`: those of its outstanding requests. With no pair STANDBY, Mule stops. -/
def execMiscompare (tags : List (BitVec 14 × BitVec 2)) (s : State) : Host.Outcome State Fault Refusal :=
  if ¬ muleUp s then .next s
  else
    let a := flag s ACTIVE_PAIR
    let s1 := quarTags (setF s (pairField a) 2) tags
    let image := if s1.nv.commit.isSome then s1.nv.image else if s1.nv.good then s1.nv.words else []
    let s2 := { s1 with nv := { s1.nv with image := image }, ctl := { s1.ctl with smbusIn := none } }
    .next (setFlag s2 SWITCHING (getF s (pairField (!a)) == 0))

/-- The cores of a pair start their trace with a sync packet (R391). -/
def pairSync (s : State) (b : Bool) : State :=
  (List.range 2).foldl (fun a i =>
    let src := pairSrc b i
    let p := syncPacket a s.free src
    if srcEnabled a src then formMule a src p.1 p.2 0 0 (syncRef a s.free src) else a) (drawFree s)

/-- MULE_SWITCHOVER_COMPLETE: the standby pair is ACTIVE after `us`; it services the watchdog and goes on from the journal. -/
def execMuleSwitchoverComplete (us : BitVec 32) (s : State) : Host.Outcome State Fault Refusal :=
  if ¬ flag s SWITCHING then .next s
  else
    let b := !flag s ACTIVE_PAIR
    let s1 := setFs s [(SWITCHING, 0), (ACTIVE_PAIR, b.toNat), (pairField b, 1), (LAST_SWITCH_US, us.toNat)]
    let s2 := raiseEv (addF s1 MULE_SWITCH_COUNT 1) evMuleSwitch
    .next (pairSync (if wdogRuns s2 then kickWdog s2 else s2) b)

/-- The pair whose self-test is under way once Mule has started. -/
def testedPair (s : State) : Option Bool :=
  let b := !flag s ACTIVE_PAIR
  if getF s (pairField b) = 2 then some b else if getF s (pairField (!b)) = 2 then some (!b) else none

/-- MULE_SELFTEST_COMPLETE: the failed pair becomes STANDBY or DISABLED. -/
def execMuleSelftestComplete (pass : Bool) (s : State) : Host.Outcome State Fault Refusal :=
  match testedPair s with
  | some b =>
    if s.pw.boot = .up ∨ s.pw.boot = .started ∨ s.pw.boot = .copied then .next (setF s (pairField b) (if pass then 0 else 3)) else .next s
  | none => .next s

/-! ## The console (R495) -/

/-- The console's receiver runs: VIO is good and the hub core is up. -/
def uartUp (s : State) : Bool := railGood s 13 && hostUp { s with pw := { s.pw with perst := false, noClock := mset s.pw.noClock false 7 false } }

/-- UART_CHARACTER: a character with its stop bit; Mule has taken `read` characters from the buffer since the last one. -/
def execUartCharacter (c : Byte) (stop : Bool) (read : BitVec 7) (s : State) : Host.Outcome State Fault Refusal :=
  let l := s.ring.uart.drop read.toNat
  let put := fun (x : List Byte) => { s with ring := { s.ring with uart := x } }
  if ¬ uartUp s then .next s
  else if ¬ stop then .next (addF (put l) FRAME_ERR 1)
  else if 64 ≤ l.length then .next (addF (put l) UART_OVERRUN 1)
  else .next (put (l ++ [c]))

/-- UART_BREAK: the line has been low for more than 20 bit times. -/
def execUartBreak (s : State) : Host.Outcome State Fault Refusal := if uartUp s then .next (addF s UART_BREAKS 1) else .next s

end Sys2Proof.Machine
end

