-- ==== Sys2Proof/Machine/Scratch.lean ====
section
/-!
DEFINITION. The scratchpad (R484 to R487): ownership of banks, accesses and the set and clear aliases.
-/
namespace Sys2Proof.Machine
open Sys2Proof Reg

/-! ## Ownership (R484, R485) -/

/-- The owner code of a requester: the loader's DMA and the TAF configuration port act as MULE. -/
def spRole (who : BitVec 2) : Nat := if who.toNat = 3 then 0 else who.toNat

/-- The requester reaches the scratchpad at all: the host through BAR0, JTAG while its debug access is open, the device's own engines
while the hub core is clocked. -/
def spReaches (s : State) (who : BitVec 2) : Bool :=
  if who.toNat = 1 then hostUp s else if who.toNat = 2 then debugOpen s && hubClock s else hubClock s

/-- A violation: counted, and the first kept in the log. -/
def spViolation (s : State) (who : BitVec 2) (bank : Nat) (write : Bool) : State :=
  let s1 := addF s SP_VIOLATION 1
  if flag s SPV_VALID then s1 else setFs s1 [(SPV_BANK, bank), (SPV_REQ, who.toNat), (SPV_WRITE, write.toNat), (SPV_VALID, 1)]

/-- The requester owns the bank. -/
def spOwns (s : State) (who : BitVec 2) (bank : Nat) : Bool := getF s (SP_BANK_OWNER bank) == spRole who

/-- A write to SP_OWNER of a bank: by the owner, or while nobody owns it. -/
def writeOwner (s : State) (who : BitVec 2) (bank owner : Nat) : State :=
  if ¬ spOwns s who bank ∧ getF s (SP_BANK_OWNER bank) ≠ 3 then spViolation s who bank true
  else if getF s (SP_BANK_OWNER bank) = owner then s
  else setFs s [(SP_BANK_OWNER bank, owner), (SP_PENDING bank, 1)]

/-! ## Accesses (R484, R486, R487) -/

/-- The byte number of an access in the scratchpad: an access is aligned to its size. -/
def spAddr (a : SpAccess) : Nat :=
  a.bank.toNat * 262144 + a.off.toNat / (if a.wide then 8 else 4) * (if a.wide then 8 else 4)

def spBytes (a : SpAccess) : Nat := if a.wide then 8 else 4

/-- The word that an access names. -/
def spRead (s : State) (a : SpAccess) : Nat := rdBytes s.sp (spAddr a) (spBytes a)

/-- `v` with the bits of `m` cleared, bit by bit. -/
def clearBits (v m : Nat) : Nat := v - (v &&& m)

/-- The word after a write. -/
def spNext (k : SpKind) (old v : Nat) : Nat :=
  match k with
  | .plain => v
  | .set => old ||| v
  | .clear => clearBits old v

/-- The owner's access to its bank. A read by the host gives it the data. -/
def spServe (s : State) (k : SpKind) (a : SpAccess) : State :=
  match a.write with
  | some v => { s with sp := wrBytes s.sp (spAddr a) (spBytes a) (spNext k (spRead s a) v.toNat) }
  | none => if a.who.toNat = 1 then { s with readData := spRead s a } else s

/-- An access to a bank: served for its owner, held while the bank is being handed over to it, refused and counted otherwise. -/
def spAccess (s : State) (k : SpKind) (a : SpAccess) : State :=
  if ¬ spOwns s a.who a.bank.toNat then
    let s1 := spViolation s a.who a.bank.toNat a.write.isSome
    if a.write.isNone ∧ a.who.toNat = 1 then { s1 with readData := 0 } else s1
  else if flag s (SP_PENDING a.bank.toNat) then { s with ring := { s.ring with spWait := s.ring.spWait ++ [(k, a)] } }
  else spServe s k a

/-- An error found in a word that the owner reads or modifies; `used`: the emulation depends on the word. -/
def spError (s : State) (k : SpKind) (a : SpAccess) (err : ReadErrorKind) (used : Bool) : State :=
  match err with
  | .corrected => spAccess (raiseEv (addF s SP_CORR 1) evHubCorrMem) k a
  | .uncorrectable =>
    if a.write.isSome then spAccess s k a
    else if a.who.toNat = 1 then s
    else if used ∧ (a.who.toNat = 0 ∨ a.who.toNat = 3) then windowError s else s
  | _ => spAccess s k a

/-! ## Rows of the table -/

/-- SP_OWNER: a requester writes SP_OWNER of a bank. -/
def execSpOwner (bank : BitVec 6) (who : BitVec 2) (owner : BitVec 2) (s : State) : Host.Outcome State Fault Refusal :=
  if spReaches s who then .next (writeOwner s who bank.toNat owner.toNat) else .next s

/-- OWNER_HANDOVER: the old owner's accesses have completed; PENDING clears, and the accesses that waited are served in order. -/
def execOwnerHandover (bank : BitVec 6) (s : State) : Host.Outcome State Fault Refusal :=
  if ¬ flag s (SP_PENDING bank.toNat) then .next s
  else
    let mine := s.ring.spWait.filter (fun e => e.2.bank == bank)
    let s1 := { setF s (SP_PENDING bank.toNat) 0 with ring := { s.ring with spWait := s.ring.spWait.filter (fun e => e.2.bank != bank) } }
    .next (mine.foldl (fun a e => spServe a e.1 e.2) s1)

/-- SCRATCHPAD_ACCESS: an access through a window, with what it finds in the word. -/
def execScratchpadAccess (a : SpAccess) (err : ReadErrorKind) (used : Bool) (s : State) : Host.Outcome State Fault Refusal :=
  if ¬ spReaches s a.who then .next s
  else if spOwns s a.who a.bank.toNat ∧ ¬ flag s (SP_PENDING a.bank.toNat) then .next (spError s .plain a err used)
  else .next (spAccess s .plain a)

/-- The bank that an access through an alias acts on: the host and JTAG name it in a register; Mule's aliases are full-size. -/
def aliasBank (s : State) (a : SpAccess) : SpAccess :=
  if a.who.toNat = 1 then { a with bank := BitVec.ofNat 6 (getF s HOST_ALIAS_BANK) }
  else if a.who.toNat = 2 then { a with bank := BitVec.ofNat 6 (getF s JTAG_ALIAS_BANK) }
  else a

/-- SET_ALIAS_WRITE: the word becomes W OR V. -/
def execSetAliasWrite (a : SpAccess) (s : State) : Host.Outcome State Fault Refusal :=
  if spReaches s a.who then .next (spAccess s .set (aliasBank s a)) else .next s

/-- CLEAR_ALIAS_WRITE: the word becomes W AND NOT V. -/
def execClearAliasWrite (a : SpAccess) (s : State) : Host.Outcome State Fault Refusal :=
  if spReaches s a.who then .next (spAccess s .clear (aliasBank s a)) else .next s

end Sys2Proof.Machine
end

