-- ==== Sys2Proof/Machine/Transport.lean ====
section
/-!
DEFINITION. The opcode table, the command rings' indices, SMBus and Ethernet (R452, R453, R461 to R463).
-/
namespace Sys2Proof.Machine
open Sys2Proof Reg

/-! ## The opcode table (R463) -/

/-- The command of an opcode. IMAGE_LOAD comes on rings alone, and FW_WRITE elsewhere only with inline data, so neither has data from
a host address here. -/
def cmdOf (opcode : Nat) : Option Cmd :=
  match opcode with
  | 0x0101 => some cmdIdGet | 0x0102 => some cmdClusterMapGet | 0x0103 => some cmdFaultGet | 0x0104 => some cmdMgmtKeySet
  | 0x0105 => some cmdEcho
  | 0x0201 => some cmdPowerSet | 0x0202 => some cmdDeviceReset | 0x0203 => some cmdFence | 0x0204 => some cmdStepClockSet
  | 0x0205 => some cmdPowerStatus
  | 0x0301 => some (cmdImageLoad []) | 0x0302 => some cmdImageAbort | 0x0303 => some cmdImageUnload
  | 0x0310 => some (cmdFwWrite []) | 0x0311 => some cmdFwActivate | 0x0312 => some cmdOptWrite | 0x0313 => some cmdOptCommit
  | 0x0314 => some cmdOptRead
  | 0x0401 => some cmdRun | 0x0402 => some cmdStop | 0x0403 => some cmdRunStatus | 0x0404 => some cmdSeqSet
  | 0x0420 => some cmdStopAt | 0x0421 => some cmdSnapshotAt | 0x0422 => some cmdResetAt | 0x0423 => some cmdBroadcast
  | 0x0424 => some cmdBarrier | 0x0428 => some cmdSetEpoch
  | 0x0501 => some (cmdPeek .none) | 0x0502 => some (cmdDeposit .none) | 0x0503 => some cmdForce | 0x0504 => some cmdRelease
  | 0x0505 => some cmdForceList | 0x0510 => some cmdSnapArea | 0x0511 => some cmdRestore | 0x0512 => some cmdSnapInfo
  | 0x0601 => some cmdAcqArm | 0x0602 => some cmdAcqDisarm | 0x0603 => some cmdAcqForce | 0x0604 => some cmdAcqStatus
  | 0x0605 => some cmdCapMapRead
  | 0x0701 => some cmdTrcEnable | 0x0702 => some cmdTrcDisable
  | 0x0801 => some cmdLinkRetrain | 0x0802 => some cmdLinkSlip | 0x0803 => some cmdLinkPrbs | 0x0804 => some (cmdLinkPrbsRead 0 0)
  | 0x0805 => some cmdLinkRejoin
  | 0x0901 => some cmdTimeGet | 0x0902 => some cmdTimeSet | 0x0903 => some cmdTimeStep | 0x0904 => some cmdTimeRate
  | 0x0A01 => some cmdQueueGet | 0x0A02 => some cmdQueueSet | 0x0A03 => some cmdQueueStats | 0x0A04 => some cmdPortGet
  | 0x0A05 => some cmdFlowSet | 0x0A06 => some cmdCrcSet | 0x0A07 => some cmdDlogSet
  | 0x0B01 => some cmdPartTileSet | 0x0B02 => some cmdPartRegionSet | 0x0B03 => some cmdSetRights | 0x0B04 => some cmdKeyInstall
  | 0x0B05 => some cmdKeyErase | 0x0B06 => some cmdSealKeySet | 0x0B07 => some cmdRekey | 0x0B08 => some cmdSnapExport
  | 0x0B09 => some cmdSnapImport | 0x0B0A => some cmdDikGet
  | 0x0C01 => some cmdMemTest | 0x0C02 => some cmdErrInject
  | 0x0D01 => some cmdTafOutputs | 0x0D02 => some cmdTafStatus | 0x0D03 => some cmdTafClksel | 0x0D04 => some cmdTafClkcfg
  | 0x0D05 => some cmdTafFifoStats
  | _ => none

/-- Mule serves a packet of any opcode: one that no command has ends with BAD_OPCODE (R459). -/
def serveAny (s : State) (q : Request) : State :=
  match cmdOf q.opcode with
  | some c => serve c s q
  | none => sendReply s q.via q.opcode q.tag rsBadOpcode [] (bitOf q.flags 0)

/-- The request that the bytes of a packet make (R455); fields beyond the end of a short packet read 0. -/
def packetOf (via : Via) (b : List Byte) : Request :=
  { via := via, opcode := fieldAt b 0 2, tag := fieldAt b 4 2, flags := fieldAt b 2 1, version := fieldAt b 3 1, length := fieldAt b 6 2,
    scope := fieldAt b 8 4, rsvd := fieldAt b 12 4, params := b.drop 16 }

/-! ## Command rings (R452, R453) -/

/-- Packets at the head of a ring whose opcodes no command has are fetched and refused, up to the first that has one. -/
def fetchUnknown (s : State) (r : Nat) : List (BitVec 16 × Packet) → State
  | [] => s
  | (op, p) :: rest =>
    if canFetch s r p.flags.toNat ∧ (cmdOf op.toNat).isNone then
      fetchUnknown (serveAny (countFetch s r) (ringRequest r op.toNat p)) r rest
    else s

/-- A write of SQ_PROD. -/
def writeSqProd (s : State) (r v : Nat) : State :=
  if ¬ flag s (CR_ENABLE r) then s
  else if sqSlots s r < diff32 v (getF s (CR_SQ_FETCHED r)) then setFlag s (CR_DB_ERR r) true
  else setF s (CR_SQ_PROD r) v

/-- SQ_PROD: the host passes packets to ring `r`; `unknown`: those at its head whose opcode no command has. -/
def execSqProd (r : BitVec 5) (v : BitVec 32) (unknown : List (BitVec 16 × Packet)) (s : State) : Host.Outcome State Fault Refusal :=
  byHost s (fun a => if r.toNat ≤ 16 then fetchUnknown (writeSqProd a r.toNat v.toNat) r.toNat unknown else a)

/-- A write of CQ_CONS: replies that were held go out. -/
def writeCqCons (s : State) (r v : Nat) : State :=
  let old := getF s (CR_CQ_CONS r)
  if diff32 (getF s (CR_CQ_PROD r)) old < diff32 v old then setFlag s (CR_DB_ERR r) true
  else
    let s1 := setF s (CR_CQ_CONS r) v
    if flag s (CR_ENABLE r) then drainHeld s1 r (heldOf s1 r).length else s1

/-- CQ_CONS. -/
def execCqCons (r : BitVec 5) (v : BitVec 32) (s : State) : Host.Outcome State Fault Refusal :=
  byHost s (fun a => if r.toNat ≤ 16 then writeCqCons a r.toNat v.toNat else a)

/-- A write of CR_CTRL.EN: 1 while EN is 0 puts the ring into service with its indices at 0; 0 ends its service (R454). -/
def writeRingEnable (s : State) (r : Nat) (en : Bool) : State :=
  if en = flag s (CR_ENABLE r) then s
  else if en then
    setHeld (setFs s [(CR_ENABLE r, 1), (CR_SQ_PROD r, 0), (CR_SQ_FETCHED r, 0), (CR_CQ_PROD r, 0), (CR_CQ_CONS r, 0)]) r []
  else endRing s r

/-- CR_EN. -/
def execCrEn (r : BitVec 5) (en : Bool) (s : State) : Host.Outcome State Fault Refusal :=
  byHost s (fun a => if r.toNat ≤ 16 then writeRingEnable a r.toNat en else a)

/-! ## SMBus (R461) -/

/-- The SMBus target answers: Mule, its recovery console, or in STANDBY, from step 2 of the bring-up on, the standby responder of the
always-on domain (R9, R461, R515). -/
def smbusUp (s : State) : Bool :=
  match s.pw.boot with
  | .off | .hold => false
  | .up | .recovery => muleUp s
  | .reset | .steps | .optionLoad | .started | .copied | .standby | .tripped => true

/-- The fragment's control byte. -/
def fragStart (b : Byte) : Bool := b.getLsbD 7
def fragEnd (b : Byte) : Bool := b.getLsbD 6

/-- Put the packet that is being assembled. -/
def setSmbusIn (s : State) (x : Option (List Byte)) : State := { s with ctl := { s.ctl with smbusIn := x } }

/-- A fragment that passes its PEC. -/
def takeFragment (s : State) (c : Byte) (bytes : List Byte) : State :=
  match (if fragStart c then some [] else s.ctl.smbusIn) with
  | none => s
  | some got =>
    if fragEnd c then serveAny (setSmbusIn s none) (packetOf .smbus (got ++ bytes)) else setSmbusIn s (some (got ++ bytes))

/-- BLOCK_WRITE: command code 0xC0, with the block's bytes; `pec`: its PEC is right. A block with START is not acknowledged while 8
replies wait. -/
def execBlockWrite (block : List Byte) (pec : Bool) (s : State) : Host.Outcome State Fault Refusal :=
  match block with
  | [] => .next s
  | c :: bytes =>
    if ¬ smbusUp s ∨ ¬ pec ∨ bytes.isEmpty ∨ 32 < block.length ∨ (fragStart c ∧ 8 ≤ s.ctl.smbusOut.length) then .next s
    else .next (takeFragment s c bytes)

/-- The block that a read of the oldest reply from byte `pos` returns: the control byte, then 31 bytes. -/
def replyBlock (reply : List Byte) (pos : Nat) : List Byte :=
  let rest := reply.drop pos
  BitVec.ofNat 8 ((decide (pos = 0)).toNat * 128 + (decide (rest.length ≤ 31)).toNat * 64) :: (rest.take 31 ++ List.replicate (31 - rest.length) 0)

/-- BLOCK_READ: command code 0xC1: the next fragment of the oldest reply, or NONE. -/
def execBlockRead (s : State) : Host.Outcome State Fault Refusal :=
  if ¬ smbusUp s then .next s
  else
    match s.ctl.smbusOut with
    | [] => .next { s with readData := 32 }
    | b :: rest =>
      let d := leNat (replyBlock b s.ctl.smbusPos)
      if b.length ≤ s.ctl.smbusPos + 31 then .next { s with readData := d, ctl := { s.ctl with smbusOut := rest, smbusPos := 0 } }
      else .next { s with readData := d, ctl := { s.ctl with smbusPos := s.ctl.smbusPos + 31 } }

/-! ## Ethernet (R462) -/

/-- The command port takes datagrams: an address and a management key are set, and Mule runs. -/
def commandPort (s : State) : Bool :=
  ethUp s && muleUp s && ipv4 s != 0 && leNat s.nv.mgmtKey != 0

/-- Put the Ethernet state. -/
def setEth (s : State) (e : Eth) : State := { s with ctl := { s.ctl with eth := e } }

/-- A datagram whose COUNTER is new is executed, and stored with its reply. -/
def runDatagram (s : State) (packet : List Byte) (counter : Nat) (datagram : List Byte) : State :=
  let e := s.ctl.eth
  let q := packetOf .ethernet packet
  let old := mget e.counters 0 q.tag
  let busy := (callsOf s .ethernet).any (fun c => c.tag == q.tag)
  let s1 := setEth s { e with counter := some counter, counters := mset e.counters 0 q.tag counter,
                              stored := (e.stored ++ [(counter, datagram, [])]).drop (e.stored.length + 1 - 16) }
  let s2 := serveAny s1 q
  if busy then setEth s2 { s2.ctl.eth with counters := mset s2.ctl.eth.counters 0 q.tag old } else s2

/-- A datagram whose COUNTER is not new: the stored reply goes out again for an exact repeat; any other is dropped. -/
def repeatDatagram (s : State) (datagram : List Byte) : State :=
  match s.ctl.eth.stored.find? (fun x => x.2.1 == datagram) with
  | some (_, _, reply) => setEth s { s.ctl.eth with out := s.ctl.eth.out ++ [reply] }
  | none => s

/-- COMMAND_DATAGRAM: the packet, COUNTER and MAC of a UDP datagram to the command port. -/
def execCommandDatagram (datagram : List Byte) (s : State) : Host.Outcome State Fault Refusal :=
  if ¬ commandPort s then .next s
  else
    let n := datagram.length - 24
    let packet := datagram.take n
    let counter := fieldAt datagram n 8
    let mac := datagram.drop (n + 8)
    if datagram.length < 24 ∨ mac ≠ ethMac s (leBytes 8 counter ++ packet) then
      .next (setEth s { s.ctl.eth with authFail := s.ctl.eth.authFail + 1 })
    else if (match s.ctl.eth.counter with | some c => decide (c < counter) | none => true) then
      .next (runDatagram s packet counter datagram)
    else .next (repeatDatagram s datagram)

end Sys2Proof.Machine
end

