-- ==== Sys2Proof/Machine/Places.lean ====
section
/-!
DEFINITION. The map of BAR0 (R496): which register, table or memory an offset names, the fields of a 32-bit word, and its value.
-/
namespace Sys2Proof.Machine
open Sys2Proof Reg

/-- What lies at an offset of BAR0; the numbers are those of the region's own rule. -/
inductive Place where
  | unmapped
  | ident | clusterMap | image (p : Nat) | mapid (p : Nat) | clockSched (k : Nat) | snapslot (k : Nat) | trunksys (t : Nat) | gopslot (j : Nat)
  | devroute (d : Nat) | partTile (w : Nat) | hbmregion (p st : Nat) | seal (p : Nat) | rights (q : Nat) | effRights (q : Nat) | rekey (st : Nat)
  | keyslot (k : Nat)
  | power | tj (k : Nat) | tjAvs | avs (d : Nat) | gated (w : Nat)
  | evPend (w : Nat) | evStatus | evRoute (e : Nat) | queuePend (w : Nat)
  | time | mpd (t : Nat) | cmp (j : Nat) | link (n : Nat)
  | queue (q : Nat) | qcnt (q : Nat) | port (i : Nat) | flow (f : Nat) | eng | bar4base (f st : Nat) | bar4err (f : Nat) | dlog (p : Nat)
  | crc (u : Nat)
  | cap | capst (d : Nat) | stage (d : Nat) | seqst (j : Nat) | mask (m : Nat)
  | trc | sel (d : Nat) (k : Nat) | traceWindow
  | sp | spown (b : Nat) | setAlias | clearAlias | spWindow
  | taf | tafreg (r : Nat) | tafbank (b : Nat) | taffifo (f : Nat) | fb (k : Nat)
  | cr (r : Nat) | crEvents (r w : Nat) | crQueues (r w : Nat) | crView (r : Nat)
  | die (d : Nat) | report (d : Nat) | block (d : Nat) | prog (d : Nat) | tile (t : Nat) | mmp (t p : Nat) | mmpc (t p : Nat)
deriving DecidableEq, Repr

/-- Offset `o` lies in `n` bytes from `b` on. -/
def within (o b n : Nat) : Bool := decide (b ≤ o) && decide (o < b + n)

/-! ## From offsets to places -/

/-- The identity and device control region (R497). -/
def identPlace (o : Nat) : Place :=
  if within o 0x400 256 then .clusterMap
  else if within o 0x2100 512 then .clockSched ((o - 0x2100) / 16)
  else if within o 0x3100 256 then .image ((o - 0x3100) / 16)
  else if within o 0x3200 64 then .mapid ((o - 0x3200) / 4)
  else if within o 0x5040 64 then .snapslot ((o - 0x5040) / 16)
  else if within o 0x5100 1536 then .trunksys ((o - 0x5100) / 16)
  else if within o 0x5700 256 then .gopslot ((o - 0x5700) / 16)
  else if within o 0x5800 2048 then .devroute ((o - 0x5800) / 4)
  else if within o 0x6040 64 then .partTile ((o - 0x6040) / 4)
  else if within o 0x6100 512 then .hbmregion ((o - 0x6100) / 32) ((o - 0x6100) % 32 / 8)
  else if within o 0x6300 64 then .seal ((o - 0x6300) / 4)
  else if within o 0x6400 256 then .rights ((o - 0x6400) / 16)
  else if within o 0x6500 256 then .effRights ((o - 0x6500) / 16)
  else if within o 0x6600 128 then .rekey ((o - 0x6600) / 32)
  else if within o 0x6700 1024 then .keyslot ((o - 0x6700) / 32)
  else .ident

/-- The reset and power region (R521). The manual puts TJ of the hub die and AVS of die 0 at one offset. -/
def powerPlace (o : Nat) : Place :=
  if o = 0x10040 then .tjAvs
  else if within o 0x10030 16 then .tj ((o - 0x10030) / 4)
  else if within o 0x10040 16 then .avs ((o - 0x10040) / 4)
  else if within o 0x10080 16 then .gated ((o - 0x10080) / 4)
  else .power

/-- The event region (R499). -/
def eventPlace (o : Nat) : Place :=
  if within o 0x20000 512 then .evPend ((o - 0x20000) / 4)
  else if o = 0x20200 then .evStatus
  else if within o 0x24000 16384 then .evRoute ((o - 0x24000) / 4)
  else if within o 0x28000 4096 then .queuePend ((o - 0x28000) / 4)
  else .unmapped

/-- The time region (R336). -/
def timePlace (o : Nat) : Place :=
  if within o 0x100200 1536 then .mpd ((o - 0x100200) / 16)
  else if within o 0x100800 256 then .cmp ((o - 0x100800) / 32)
  else .time

/-- The queue region (R366). -/
def queuePlace (o : Nat) : Place :=
  if o < 0x600000 then .queue ((o - 0x400000) / 64)
  else if o < 0x700000 then .qcnt ((o - 0x600000) / 32)
  else if o < 0x710000 then .port ((o - 0x700000) / 32)
  else if o < 0x712000 then .flow ((o - 0x710000) / 16)
  else if within o 0x720100 544 then .bar4base ((o - 0x720100) / 32) ((o - 0x720100) % 32 / 8)
  else if within o 0x720400 68 then .bar4err ((o - 0x720400) / 4)
  else if within o 0x720000 4096 then .eng
  else if within o 0x721000 512 then .dlog ((o - 0x721000) / 32)
  else .unmapped

/-- The capture and trace regions (R394, R395). -/
def capturePlace (o : Nat) : Place :=
  if within o 0x800020 64 then .capst ((o - 0x800020) / 16)
  else if within o 0x800080 16 then .stage ((o - 0x800080) / 4)
  else if within o 0x800100 1024 then .seqst ((o - 0x800100) / 64)
  else if within o 0x800600 256 then .mask ((o - 0x800600) / 32)
  else .cap

def tracePlace (o : Nat) : Place :=
  if within o 0x900100 128 then .sel ((o - 0x900100) / 32) ((o - 0x900100) % 32 / 2)
  else if 0x980000 ≤ o then .traceWindow
  else .trc

/-- The scratchpad control region (R500). -/
def scratchPlace (o : Nat) : Place :=
  if within o 0xB00000 256 then .spown ((o - 0xB00000) / 4)
  else if within o 0xB40000 0x40000 then .setAlias
  else if within o 0xB80000 0x40000 then .clearAlias
  else .sp

/-- The adapter fabric's registers (R417). -/
def tafPlace (o : Nat) : Place :=
  if within o 0xC00040 256 then .tafreg ((o - 0xC00040) / 16)
  else if within o 0xC00200 32 then .tafbank ((o - 0xC00200) / 4)
  else if within o 0xC00400 1024 then .taffifo ((o - 0xC00400) / 16)
  else if within o 0xC01000 384 then .fb ((o - 0xC01000) / 64)
  else .taf

/-- The command rings (R453, R494). -/
def ringPlace (o : Nat) : Place :=
  let r := (o - 0x2000000) / 0x10000
  let x := (o - 0x2000000) % 0x10000
  if within x 0x8000 512 then .crEvents r ((x - 0x8000) / 4)
  else if within x 0x9000 4096 then .crQueues r ((x - 0x9000) / 4)
  else if within x 0xC000 256 then .crView r
  else .cr r

/-- A die window (R147, R501). -/
def diePlace (o : Nat) : Place :=
  let d := (o - 0x3000000) / 0x400000
  let x := (o - 0x3000000) % 0x400000
  if within x 0x22000 0x2000 then .report d
  else if within x 0x100000 0x40000 then .block d
  else if within x 0x140000 0x1000 then .prog d
  else if within x 0x200000 0x40000 then
    let t := d * 32 + (x - 0x200000) / 0x2000
    let y := (x - 0x200000) % 0x2000
    if within y 0x1000 0x400 then .mmp t ((y - 0x1000) / 32)
    else if within y 0x1400 0x400 then .mmpc t ((y - 0x1400) / 32)
    else .tile t
  else .die d

/-- What lies at an offset of the PF's BAR0. -/
def placeOf (o : Nat) : Place :=
  if o < 0x10000 then identPlace o
  else if o < 0x20000 then powerPlace o
  else if o < 0x30000 then eventPlace o
  else if o < 0x100000 then .unmapped
  else if o < 0x200000 then timePlace o
  else if o < 0x260000 then .link ((o - 0x200000) / 0x1000)
  else if o < 0x400000 then .unmapped
  else if o < 0x800000 then queuePlace o
  else if o < 0x900000 then capturePlace o
  else if o < 0xA00000 then tracePlace o
  else if o < 0xB00000 then (if o < 0xA01000 then .crc ((o - 0xA00000) / 64) else .unmapped)
  else if o < 0xC00000 then scratchPlace o
  else if o < 0x1000000 then tafPlace o
  else if o < 0x2000000 then .spWindow
  else if o < 0x2110000 then ringPlace o
  else if o < 0x3000000 then .unmapped
  else diePlace o

/-! ## Fields -/

/-- The fields that overlap the 32-bit word at offset `o` of a place. -/
def fieldsOf (pl : Place) (o : Nat) : List Field :=
  match pl with
  | .ident => identWord o
  | .image p => imageWord p (o - imageBase p)
  | .mapid p => mapidWord p (o - mapidBase p)
  | .snapslot k => snapslotWord k (o - snapslotBase k)
  | .trunksys t => trunksysWord t (o - trunksysBase t)
  | .gopslot j => gopslotWord j (o - gopslotBase j)
  | .devroute d => devrouteWord d (o - devrouteBase d)
  | .hbmregion p st => hbmregionWord p st (o - hbmregionBase p st)
  | .seal p => sealWord p (o - sealBase p)
  | .rekey st => rekeyWord st (o - rekeyBase st)
  | .keyslot k => keyslotWord k (o - keyslotBase k)
  | .power => powerWord (o - powerBase)
  | .tj k => tjWord k (o - tjBase k)
  | .avs d => avsWord d (o - avsBase d)
  | .evStatus => evstatWord (o - evstatBase)
  | .evRoute e => evrouteWord e (o - evrouteBase e)
  | .time => timeWord (o - timeBase)
  | .mpd t => mpdWord t (o - mpdBase t)
  | .cmp j => cmpWord j (o - cmpBase j)
  | .link n => linkWord n (o - linkBase n)
  | .queue q => queueWord q (o - queueBase q)
  | .qcnt q => qcntWord q (o - qcntBase q)
  | .port i => portWord i (o - portBase i)
  | .flow f => flowWord f (o - flowBase f)
  | .eng => engWord (o - engBase)
  | .bar4base f st => bar4baseWord f st (o - bar4baseBase f st)
  | .bar4err f => bar4errWord f (o - bar4errBase f)
  | .dlog p => dlogWord p (o - dlogBase p)
  | .crc u => crcWord u (o - crcBase u)
  | .cap => Reg.capWord (o - Reg.capBase)
  | .capst d => capstWord d (o - capstBase d)
  | .stage d => stageWord d (o - stageBase d)
  | .seqst j => seqstWord j (o - seqstBase j)
  | .mask m => maskWord m (o - maskBase m)
  | .trc => trcWord (o - trcBase)
  | .sel d k => selWord d k 0 ++ selWord d (k + 1) 0
  | .sp => spWord (o - spBase)
  | .spown b => spownWord b (o - spownBase b)
  | .taf => tafWord (o - tafBase)
  | .tafreg r => tafregWord r (o - tafregBase r)
  | .tafbank b => tafbankWord b (o - tafbankBase b)
  | .taffifo f => taffifoWord f (o - taffifoBase f)
  | .fb k => fbWord k (o - fbBase k)
  | .cr r => crWord r (o - crBase r)
  | .die d => dieWord d (o - dieBase d)
  | .tile t => tileWord t (o - tileBase t)
  | .mmp t p => mmpWord t p (o - mmpBase t p)
  | .mmpc t p => mmpcWord t p (o - mmpcBase t p)
  | _ => []

/-- The word has no field, and some register holds it all the same: it is reserved, or no field of the table makes its value. -/
def heldWord (pl : Place) (o : Nat) : Bool :=
  match pl with
  | .unmapped => false
  | .clusterMap | .clockSched _ | .partTile _ | .rights _ | .effRights _ | .tjAvs | .gated _ | .evPend _ | .queuePend _ | .traceWindow | .setAlias
  | .clearAlias | .spWindow | .crEvents _ _ | .crQueues _ _ | .crView _ | .report _ | .block _ | .prog _ => true
  | .ident => o == 0x601C
  | .queue q => decide (0x38 ≤ o - queueBase q)
  | .mmp _ _ => true
  | _ => false

/-- Some register holds the word at offset `o`. -/
def occupied (o : Nat) : Bool := heldWord (placeOf o) o || !(fieldsOf (placeOf o) o).isEmpty

/-- The bits of a word that no reserved field holds (R17). -/
def knownBits (o : Nat) : Nat :=
  let pl := placeOf o
  match pl with
  | .clusterMap | .partTile _ | .gated _ | .evPend _ | .queuePend _ | .traceWindow | .setAlias | .clearAlias | .spWindow
  | .crEvents _ _ | .crQueues _ _ | .crView _ | .report _ => 2 ^ 32 - 1
  | .clockSched _ => if o % 16 = 4 then 0xFF else 2 ^ 32 - 1
  | .rights _ | .effRights _ => 0x3F3F3F3F
  | .tjAvs => 0xFFFF
  | .block _ => if o % 8 = 0 then 2 ^ 32 - 1 else 7
  | .prog _ => 2 ^ 18 - 1
  | .queue q => fieldMask o ((fieldsOf pl o).filter (fun f => !(inboundQ q && f == Q_SINK q)))
  | _ => fieldMask o (fieldsOf pl o)

/-! ## Values -/

/-- A field of the identity region as a read sees it (R278, R449). -/
def identVal (s : State) (f : Field) : Nat :=
  if f = ALL_UP then (!(upTrunks s).isEmpty && (List.range 96).all (fun t => getF s (TS_STATE t) == tsNone || getF s (TS_STATE t) == tsUp)).toNat
  else if f = ANY_QUAR then ((List.range 96).any (fun t => getF s (TS_STATE t) == tsQuarantine)).toNat
  else if f = ANY_DOWN then ((List.range 96).any (fun t => getF s (TS_STATE t) == tsDown)).toNat
  else if f = REKEY_ACTIVE then ((List.range 4).any (fun st => getF s (RK_STATE st) == 1)).toNat
  else if f = WDOG_LEFT then (Config.freeValue 14 s.free).toNat % (getF s WDOG_PERIOD + 1)
  else if f.acc = .wo ∨ f = SEQ_RUN ∨ f = SEQ_STOP then 0
  else getF s f

/-- A field of a lane's or trunk's block (R280, R308). -/
def linkVal (s : State) (n : Nat) (f : Field) : Nat :=
  if f = LANE_LOGICAL n then (match trunkOfLane s n with | some t => logicalOf s t n | none => 0)
  else if linkBase n * 8 + 0x800 * 8 ≤ f.key ∧ ¬ trunkExists s n then 0
  else if f = ACTIVE_LANES n then (activeLanes s n).length
  else if f = ACTIVE_MASK n then (maskOf s n (activeLanes s n)).toNat
  else if f.acc = .w1s then 0
  else getF s f

/-- A field of the time region. -/
def timeVal (s : State) (f : Field) : Nat :=
  if f = TIME_NOW_NS then s.time.ns else if f = TIME_NOW_SEC then s.time.sec.toNat
  else if f = TIME_NOW_FRAC then s.time.frac.toNat / 2 ^ 24 else getF s f

/-- A field of a snapshot slot of partition 0. -/
def snapVal (s : State) (k : Nat) (f : Field) : Nat :=
  let x := snapAt s 0 k
  if f = SNAP_VALID k then x.valid.toNat else if f = SNAP_INVALID k then x.invalid.toNat else if f = SNAP_WRITING k then x.writing.toNat
  else if f = SNAP_EPOCH k then x.epoch.toNat else x.cycle.toNat

/-- A field of a place as a read sees it. -/
def valOf (s : State) (pl : Place) (f : Field) : Nat :=
  match pl with
  | .ident => identVal s f
  | .snapslot k => snapVal s k f
  | .evStatus => if f = EVENT_N then (eventPin s).toNat else getF s f
  | .time => timeVal s f
  | .cmp j => if f = CMP_OWNER j then cmpOwner s j else getF s f
  | .link n => linkVal s n f
  | .queue q => queueVal s q f
  | .port i => portVal s i f
  | .cap => if f.acc = .w1s then 0 else if f = RING_RECORDS then ringRecords s else getF s f
  | .stage d => stageOf s d / 64
  | .trc => if f = TRC_ACTIVE then (nextSource s).isSome.toNat else if f = TRC_SYNC_FORCED then (syncForced s).toNat else getF s f
  | .taffifo k => if f = FIFO_LEVEL k then (fifoWords s k).length else getF s f
  | .cr r => if f = CR_OUTSTANDING r then (callsOf s (.ring r)).length else getF s f
  | .die d => if f = DIE_ALL_GATED d then ((List.range 32).all (fun i => flag s (TILE_GATED (d * 32 + i)))).toNat
    else if f = HBM_TAGS_USED d then tagsUsed s d else getF s f
  | .fb k => if f = FB_DATA k then (fbRead s k).2 else getF s f
  | _ => getF s f

/-- Bits of a table at an index rising from 0, as a number. -/
def bitsWhere (p : Nat → Bool) : Nat → Nat
  | 0 => 0
  | n + 1 => bitsWhere p n + (p n).toNat * 2 ^ n

/-- Four bytes as a number. -/
def fourBytes (b : Nat → Nat) : Nat := b 0 + b 1 * 2 ^ 8 + b 2 * 2 ^ 16 + b 3 * 2 ^ 24

/-- LOAD_STATUS (R234). -/
def loadStatusWord (s : State) : Nat := wordValue (identVal s) 0x3000 (identWord 0x3000)

/-- A word of the partition view of partition `p` (R494). -/
def viewWord (s : State) (p x : Nat) : Nat :=
  if x = 0 then wordValue (getF s) (sealBase p) (sealWord p 0)
  else if within x 0x20 32 then wordValue (getF s) (hbmregionBase p ((x - 0x20) / 8) + x % 8) (hbmregionWord p ((x - 0x20) / 8) (x % 8))
  else if within x 0x40 16 then fourBytes (fun i => effRights s p (x - 0x40 + i))
  else if x = 0x50 then (if getF s LOAD_PARTITION = p then loadStatusWord s else 0)
  else if within x 0x60 16 then wordValue (getF s) (imageBase p + (x - 0x60)) (imageWord p (x - 0x60))
  else if x = 0x70 then getF s (MAP_ID p)
  else 0

/-- The value of a word, without the effect of its read. -/
def wordAtOffset (s : State) (o : Nat) : Nat :=
  let pl := placeOf o
  match pl with
  | .unmapped => 0
  | .clusterMap => fourBytes (fun i => clusterByte s (o - 0x400 + i))
  | .clockSched k => bitsOf (mget s.cyc.sched 0 k).toNat (8 * (o % 16)) 32
  | .gopslot j => (match opInSlot s j with | some g => bitsOf (gopWord g) (8 * (o % 16)) 32 | none => 0)
  | .partTile w => (List.range 8).foldl (fun n i => n + getF s (TILE_PARTITION (w * 8 + i)) * 2 ^ (4 * i)) 0
  | .rights q => fourBytes (fun i => getF s (RIGHTS (o % 16 + i) q))
  | .effRights q => fourBytes (fun i => effRights s (o % 16 + i) q)
  | .tjAvs => if Config.fabricBit s.free 0 then getF s (TJ 4) else wordValue (getF s) (avsBase 0) (avsWord 0 0)
  | .gated w => bitsWhere (fun i => flag s (TILE_GATED (w * 32 + i))) 32
  | .evPend w => pendingWord s 0 w
  | .queuePend w => queuePendingWord s 0 w
  | .traceWindow => rdBytes s.trc.buffer (getF s TRC_WIN * 0x80000 + (o - 0x980000)) 4
  | .crEvents r w => pendingWord s r w
  | .crQueues r w => queuePendingWord s r w
  | .crView r => viewWord s (r - 1) (o % 0x100)
  | .report d => bitsOf (mget s.cyc.report 0 (d * 1024 + o % 0x2000 / 8)).toNat (8 * (o % 8)) 32
  | .block d => bitsOf (mget s.eng.block 0 (d * 32768 + o % 0x40000 / 8)).toNat (8 * (o % 8)) 32
  | .prog d => (mget s.eng.prog 0 (d * 1024 + o % 0x1000 / 4)).toNat
  | .ident => if o = 0x2004 then seqStatusWord s else wordValue (identVal s) o (identWord o)
  | _ => wordValue (valOf s pl) o (fieldsOf pl o)

end Sys2Proof.Machine
end

