-- ==== Sys2Proof/Machine/Registers.lean ====
section
/-!
DEFINITION. Host accesses through BAR0 (R15 to R17, R480, R496): reads, with their latches and the counters that they clear, and
writes, with what each register's own rule makes of them.
-/
namespace Sys2Proof.Machine
open Sys2Proof Reg

/-! ## Accesses -/

/-- The offset in the PF's map of an access: a VF's BAR0 holds the block of its command ring alone (R453, R496). -/
def barOffset (a : Access) : Option Nat :=
  let o := a.off.toNat / (if a.wide then 8 else 4) * (if a.wide then 8 else 4)
  if a.fn = 0 then some o else if a.fn.toNat ≤ 16 ∧ o < 0x10000 then some (crBase a.fn.toNat + o) else none

/-- The words of an access from offset `o`. -/
def wordsFrom (o : Nat) (wide : Bool) : List Nat := if wide then [o, o + 4] else [o]

/-- The stop that serves a word accepts no request, so that the access ends with BUSY (R28, R480, R483): a die's stop serves the die's
own registers, a tile's stop the tile's. TILE_STATUS and DIE_STATUS show the fence itself. -/
def fencedAt (s : State) (o : Nat) : Bool :=
  match placeOf o with
  | .die d => o != dieBase d && portClosed s true d
  | .report d | .block d | .prog d => portClosed s true d
  | .tile t => o != tileBase t && (flag s (TILE_GATED t) || portClosed s false t)
  | .mmp t _ | .mmpc t _ => flag s (TILE_GATED t) || portClosed s false t
  | _ => false

/-- The word is of the block tables, the program registers or the MMP configuration of a sealed partition, which no one may read
(R426). -/
def sealedAt (s : State) (o : Nat) : Bool :=
  let shut := fun (t : Nat) => flag s (SEALED (getF s (TILE_PARTITION t)))
  match placeOf o with
  | .block d => shut (d * 32 + o % 0x40000 / 8 / 1024)
  | .prog d => shut (d * 32 + o % 0x1000 / 4 / 32)
  | .mmp t _ => shut t
  | _ => false

/-- A failed access is recorded (R480). -/
def barError (s : State) (code : Nat) : State := setF s BAR0_ERR code

/-- The scratchpad access that a host access to the window or an alias makes. -/
def hostScratch (s : State) (o : Nat) (wide : Bool) (write : Option (BitVec 64)) : Option (SpKind × SpAccess) :=
  let alias_ := fun (b : Nat) => aliasBank s ⟨1, 0, BitVec.ofNat 18 (o - b), wide, write⟩
  match placeOf o with
  | .spWindow => some (.plain, ⟨1, BitVec.ofNat 6 ((o - 0x1000000) / 0x40000), BitVec.ofNat 18 (o - 0x1000000), wide, write⟩)
  | .setAlias => some (.set, alias_ 0xB40000)
  | .clearAlias => some (.clear, alias_ 0xB80000)
  | _ => none

/-! ## Reads -/

/-- The high words that a read of a low word latches. -/
def latchedBy (o : Nat) : List Nat :=
  if o = 0x8 ∨ o = 0x2010 ∨ o = 0x2058 ∨ o = 0x3008 ∨ o = 0x100030 ∨ (within o 0x5100 1536 ∧ o % 16 = 8)
      ∨ (within o 0x200000 0x60000 ∧ (o % 0x1000 = 0x10 ∨ o % 0x1000 = 0x18)) then [o + 4]
  else if o = 0x100008 then [0x10000C, 0x100010]
  else []

/-- The word is one that reads take from a latch. -/
def isLatched (o : Nat) : Bool := (latchedBy (o - 4)).contains o || (latchedBy (o - 8)).contains o

/-- Latch what a read of a list of words latches. -/
def latchWords (s : State) : List Nat → State
  | [] => s
  | o :: r => latchWords { s with ring := { s.ring with latch := (latchedBy o).foldl (fun m h => mset m 0 h (wordAtOffset s h)) s.ring.latch } } r

/-- The value of a word as a read returns it. -/
def readWord (s : State) (o : Nat) : Nat := if isLatched o then mget s.ring.latch 0 o else wordAtOffset s o

/-- The value of a list of words. -/
def readWords (s : State) : List Nat → Nat
  | [] => 0
  | o :: r => readWord s o + 2 ^ 32 * readWords s r

/-- The RC fields that a read of a word clears: a read of any part of a counter clears it, and one of MMP +0x18 both counters there
(R16, R178). -/
def clearedBy (o : Nat) : List Field :=
  match placeOf o with
  | .mmpc t p => if o - mmpcBase t p < 0x18 then mmpcWord t p (o - mmpcBase t p) else [MMP_HOLD t p, MMP_WDROP t p]
  | pl => (fieldsOf pl o).filter (fun f => f.acc == .rc)

/-- What else a read of a word does: a complete GOP slot is freed, a received byte is popped, and an open value is used up. -/
def readEffect (s : State) (o : Nat) : State :=
  match placeOf o with
  | .gopslot j => if o % 16 = 0 then freeSlot s j else s
  | .fb k => if o - fbBase k = 8 then (fbRead s k).1 else s
  | .tjAvs => drawFree s
  | .ident => if o = 0x4048 then drawFree s else s
  | _ => s

/-- A host read of a list of words. -/
def readRegisters (s : State) (l : List Nat) : State :=
  let s1 := latchWords s l
  let v := readWords s1 l
  let s2 := setFs s1 ((l.flatMap clearedBy).map (fun f => (f, 0)))
  { (l.foldl readEffect s2) with readData := v }

/-- An uncorrectable error in a word of the trace buffer (R199, R487): the read returns nothing, and while the buffer holds the output
of the running trace, so that the word is in use, HUB_MEM_UNCORR stops the device. -/
def traceBufferError (s : State) : State :=
  if flag s TRC_EN ∧ getF s TRC_SINK % 3 = 0 then raiseFault s fcHubMemUncorr (locDevice s) else s

/-- A host read through BAR0. -/
def hostRead (s : State) (a : Access) : State :=
  match barOffset a with
  | none => { s with readData := 0 }
  | some o =>
    match hostScratch s o a.wide none with
    | some (k, x) => spAccess s k x
    | none =>
      if (wordsFrom o a.wide).any (fencedAt s) then barError s 1
      else if (wordsFrom o a.wide).any (sealedAt s) then barError (refuseRights s) 3
      else if a.uncorr ∧ placeOf o = .traceWindow then traceBufferError s
      else readRegisters s (wordsFrom o a.wide)

/-! ## Writes: the identity region -/

/-- A write of a span of the sequencing and system registers (R146, R240 to R242, R278). -/
def writeSequencing (s : State) (w : Span) : State :=
  let s1 := if w.touches SEQ_MODE then setSeqMode s (w.next s SEQ_MODE == 1) else s
  let s2 := if w.touches SKEW_LIMIT then setSkew s1 (w.next s SKEW_LIMIT) else s1
  let s3 := if w.touches NOPROGRESS_LIMIT then setNoProgress s2 (w.next s NOPROGRESS_LIMIT) else s2
  let pace := [PACE_T0_NS, PACE_T0_SEC, PACE_PERIOD_NS, PACE_PERIOD_FRAC]
  let s4 := setSpan s3 w (RUN_COUNT :: pace)
  let s5 := if pace.any w.touches then reindex s4 else s4
  let s6 := if w.ones SEQ_RUN then seqRun s5 else s5
  if w.ones SEQ_STOP then seqStop s6 else s6

/-- DEV_ID is writable in IDLE, DIAMETER outside RUNNING; another write is ignored and shows (R240, R278). A new DEV_ID is said in HELLO,
and classifies every trunk anew (R248, R250). -/
def writeSystem (s : State) (w : Span) : State :=
  let badId := w.touches DEV_ID && runState s != stIdle
  let badDia := w.touches DIAMETER && runState s == stRunning
  let s1 := if badId ∨ ¬ w.changes s DEV_ID then s else identityChanged (setSpan s w [DEV_ID])
  let s2 := if badDia then s1 else setSpan s1 w [DIAMETER]
  if badId ∨ badDia then setFlag s2 SYS_CFG_REFUSED true else s2

/-- WDOG_PERIOD is clamped to 10 ms to 10 s (R478, R498). -/
def writeWdogPeriod (s : State) (w : Span) : State :=
  if w.touches WDOG_PERIOD then setF s WDOG_PERIOD (max 10 (min 10000 (w.next s WDOG_PERIOD))) else s

/-- Clear a fault log whose VALID is written with 1: the whole register goes to 0 (R115, R116, R177, R500). -/
def clearLog (s : State) (w : Span) (valid : Field) (rest : List Field) : State :=
  if w.ones valid then setFs s ((valid :: rest).map (fun f => (f, 0))) else s

/-- A write of a span of the identity region. -/
def writeIdent (s : State) (w : Span) : State :=
  let s0 := clearOnes s w [OVERRUN, RUN_REFUSED, SYS_CFG_REFUSED, GOP_LATE]
  let s1 := writeWdogPeriod (writeSystem (writeSequencing s0 w) w) w
  let s2 := setSpan s1 w [CR_TIMEOUT, FENCE_DRAIN, PIN_EN]
  let s3 := if w.ones CFG_ERR then clearCfgErr s2 else s2
  let s4 := if w.ones ALARM then clearAlarm s3 else s3
  clearLog s4 w BF_VALID [BF_MODULE, BF_PEER, BF_DIE, BF_NEIGHBOUR, BF_HUB_SIDE]

/-- DEV_ROUTE is writable outside RUNNING (R241). -/
def writeDevRoute (s : State) (w : Span) (d : Nat) : State :=
  if runState s = stRunning then setFlag s SYS_CFG_REFUSED true else setSpan s w [DR_TRUNK d, DR_VALID d]

/-- A number with the bits that a span covers replaced, at bit address `base`. -/
def putNat (w : Span) (base width old : Nat) : Nat := w.put ⟨base, width, .rw, 0⟩ old

/-- A write of a span of the clock schedule's entry `k` (R122, R146). -/
def writeSchedule (s : State) (w : Span) (k : Nat) : State :=
  let v := putNat w ((0x2100 + k * 16) * 8) 128 (mget s.cyc.sched 0 k).toNat
  { s with cyc := { s.cyc with sched := mset s.cyc.sched 0 k (BitVec.ofNat 128 (bitsOf v 64 64 * 2 ^ 64 + v % 2 ^ 40)) } }

/-! ## Writes: power, events and time -/

/-- Bits of a register that clear bit by bit (R16). -/
def clearEach (s : State) (w : Span) (f : Field) : State := setF s f (clearBits (getF s f) (w.put f 0))

/-- A write of a span of the power region (R521). -/
def writePower (s : State) (w : Span) : State :=
  let s1 := clearOnes s w [RST_POR, RST_PIN, RST_CMD, RST_WDOG, RST_RAIL, RST_THERM, RST_BLOCK, AVS_ERR, HOT]
  let s2 := if w.touches RAIL_LOST then clearEach s1 w RAIL_LOST else s1
  let s3 := if w.touches T_THROT then setF s2 T_THROT (max 70 (min 95 (w.next s T_THROT))) else s2
  if w.touches STEP_MHZ_REQ then setStepReq s3 (w.next s STEP_MHZ_REQ) else s3

/-- A write of a span of the time region (R312, R323, R334, R336). -/
def writeTime (s : State) (w : Span) : State :=
  let ctrl := [TIME_ROLE, TIME_SOURCE, TIME_PARENT, SYNC_RATE, PDELAY_RATE, ETH_ROLE, ETH_ENCAP]
  let s0 := clearOnes s w [TIME_CONFLICT, STEP_REFUSED, HALT_RUN_BLOCKED]
  let s1 := if w.touches TIME_ROLE then refreshRole (setSpan s0 w ctrl) else s0
  let s2 := if w.touches RATE_ADJ then writeRate s1 (w.next s RATE_ADJ) else s1
  let s3 := setSpan s2 w [TIME_CHILD0, TIME_CHILD1, TIME_CHILD2]
  let s4 := if w.touches HALT_DISC then setF s3 HALT_DISC (max 100 (min 100000 (w.next s HALT_DISC))) else s3
  if w.ones HALT_DISC_LATCH then clearDisc s4 else s4

/-! ## Writes: links -/

/-- A write of a span of a lane's registers (R295, R298, R305, R308). -/
def writeLane (s : State) (w : Span) (n : Nat) : State :=
  let s0 := clearOnes s w [NO_PARTNER n, MISWIRED n]
  if ¬ w.touches (LANE_ENABLE n) then s0
  else
    let s1 := setSpan s0 w [ALIGN_MANUAL n]
    let s2 := setLaneCtrl s1 n (w.next s (LANE_ENABLE n) == 1) (w.next s (LANE_TRUNK n))
    let s3 := setPrbs s2 n (w.next s (PRBS_GEN n)) (w.next s (PRBS_CHK n))
    let s4 := if w.ones (PRBS_CLR_BIT n) then clearPrbs s3 n else s3
    if w.ones (RETRY_NOW_BIT n) then retryLane s4 n else s4

/-- A write of a span of block `n`: the trunk's registers only while it exists. -/
def writeLink (s : State) (w : Span) (n : Nat) : State :=
  let s1 := writeLane s w n
  if trunkExists s n then setSpan s1 w [FEC_REQ n, MIN_LANES_M1 n, REJOIN_AUTO n] else s1

/-! ## Writes: capture and trace -/

/-- Configuration registers of the acquisition engine that a span touches. -/
def capConfig : List Field := [ACQ_POLICY, DEC_MAX, ACQ_OWNER, ACQ_PRE, ACQ_POST, ACQ_AUTO, ARM_CYCLE]

/-- The engine takes configuration: IDLE or DONE (R394). -/
def capFree (s : State) : Bool := getF s ASTATE == asIdle || getF s ASTATE == asDone

/-- A write of configuration fields: performed while the engine is free, and refused at any other time (R394). -/
def writeCapConfig (s : State) (w : Span) (fs : List Field) : State :=
  if capFree s then setSpan s w fs
  else if w.refused s fs [ACQ_ARM_BIT, ACQ_ARM_AT_BIT, ACQ_DISARM_BIT, ACQ_FORCE_BIT] then setFlag s ACQ_REFUSED true else s

/-- A write of a span of the capture registers; a new owner ends the routes of its events (R492). -/
def writeCapture (s : State) (w : Span) : State :=
  let s0 := clearOnes s w [ACQ_INTERRUPTED, ACQ_REFUSED]
  let s1 := fixRoutes s (writeCapConfig s0 w capConfig) [evAcqTrigger, evAcqDone, evMaskViolation]
  let s2 := if w.ones ACQ_DISARM_BIT then disarm s1 else s1
  let s3 := if w.ones ACQ_ARM_BIT then armRequest s2 .next else s2
  let s4 := if w.ones ACQ_ARM_AT_BIT then armRequest s3 .atCycle else s3
  if w.ones ACQ_FORCE_BIT then forceTrigger s4 else s4

/-- The fields of sequencer state `j` that are written. -/
def seqConfig (j : Nat) : List Field :=
  [ST_A_MASK j, ST_A_VAL j, ST_B_MASK j, ST_B_VAL j, ST_A_EN j, ST_A_MODE j, ST_A_NEXT j, ST_A_TRIGGER j, ST_A_COUNT_M1 j, ST_B_EN j,
   ST_B_MODE j, ST_B_NEXT j, ST_B_TRIGGER j, ST_B_COUNT_M1 j]

/-- A write of a span of mask test `m` (R381, R382). -/
def writeMask (s : State) (w : Span) (m : Nat) : State :=
  let s1 := setSpan s w [MT_EN m, MT_STOP m, MT_SRC m, MT_DIE m, MT_WORD m, MT_EXPECT m, MT_CARE m]
  clearLog s1 w (MT_FV_VALID m) [MT_FIRST_VIOL m]

/-- TRC_CTRL beside EN, and the sink registers. -/
def trcConfig : List Field :=
  [TRC_SINK, TRC_STOP_FULL, TRC_OWNER, TRC_SEQ_LEVEL, TRC_MULE_EN, TRC_TE_EN, TRC_LINK_EN, TRC_SYNC_PERIOD, TRC_HBM_STACK, TRC_HBM_BASE,
   TRC_HBM_LINES, TRC_HRING_ADDR, TRC_HWB_ADDR, TRC_HLOG2]

/-- A write of a span of the trace registers (R392, R395, R492). -/
def writeTrace (s : State) (w : Span) : State :=
  let s0 := clearOnes s w [TRC_FULL, TRC_OVERFLOW_BIT]
  let s1 := if flag s TRC_EN then s0 else fixRoutes s (setSpan s0 w trcConfig) [evTrcOverflow]
  let s2 := setSpan s1 w [TRC_HCONS, TRC_WIN, LINK_MASK0, LINK_MASK1, LINK_MASK2]
  if ¬ w.changes s TRC_EN then s2 else if flag s TRC_EN then setFlag s2 TRC_EN false else enableTrace s2

/-! ## Writes: the adapter fabric -/

/-- A write of a span of TAF_CTRL and TAF_STATUS (R403, R408, R413, R417). -/
def writeTaf (s : State) (w : Span) : State :=
  let s0 := clearOnes s w [TAF_CFG_CORR, TAF_CFG_UNCORR, TAF_MUX_FORCED]
  let s1 := if w.touches FAB_OE then setFabOe s0 (w.next s FAB_OE == 1) else s0
  let s2 := setSpan s1 w [FB_OE, FB_EN, TB_REGION, TB_RCLK, TIN_MODE, OFF_ON_UNCORR]
  if w.touches TB_REGION ∧ atBoundary s then refreshTb s2 else s2

/-- A write of a span of region `r`. -/
def writeRegion (s : State) (w : Span) (r : Nat) : State :=
  let s0 := clearOnes s w [CLK_OVER r]
  if w.touches (REGION_DIV r) then writeDividers s0 r (w.next s (REGION_DIV r)) else s0

/-- A write of a span of fall-back block `k`. -/
def writeFallback (s : State) (w : Span) (k : Nat) : State :=
  let s1 := setSpan s w [FB_DIV k, FB_ENABLE k, FB_I2C_400 k, FB_I2C_ADDR k]
  if w.touches (FB_DATA k) then fbWrite s1 k (BitVec.ofNat 8 (w.put (FB_DATA k) 0)) else s1

/-! ## Writes: command rings -/

/-- Fields of a ring's block that are writable only while EN is 0 (R453). -/
def ringLocked (r : Nat) : List Field := [CR_SQ_LOG2 r, CR_CQ_LOG2 r, CR_SQ_BASE r, CR_CQ_BASE r, CR_WB_ADDR r]

/-- A write of a span of a ring's block. -/
def writeRing (s : State) (w : Span) (r : Nat) : State :=
  let s0 := clearOnes s w [CR_DMA_ERR r, CR_DB_ERR r, CR_CFG_REFUSED r]
  let s1 := if ¬ flag s (CR_ENABLE r) then setSpan s0 w (ringLocked r)
    else if w.refused s (ringLocked r) [CR_ENABLE r] then setFlag s0 (CR_CFG_REFUSED r) true else s0
  let s2 := setSpan s1 w [CR_EV_ALL r]
  let s3 := if w.touches (CR_ENABLE r) then writeRingEnable s2 r (w.next s (CR_ENABLE r) == 1) else s2
  let s4 := if w.touches (CR_SQ_PROD r) then writeSqProd s3 r (w.next s (CR_SQ_PROD r)) else s3
  if w.touches (CR_CQ_CONS r) then writeCqCons s4 r (w.next s (CR_CQ_CONS r)) else s4

/-! ## Writes: die windows (R33, R147, R152) -/

/-- The tile takes part in a run: a write to its tables is held (R33). -/
def tileRuns (s : State) (t : Nat) : Bool := runState s == stRunning && !flag s (TILE_IN_RESET t)

/-- The value of a block entry once the writes that are held have been applied. -/
def blockAfter (s : State) (t k : Nat) : BitVec 64 :=
  (mget s.cyc.held [] t).foldl (fun v h => match h.2 with | .block j x => if j = k then x else v | _ => v) (mget s.eng.block 0 k)

/-- A write of a span of block-table entry `k`, `e` its offset. Reserved bits stay 0. -/
def writeBlockEntry (s : State) (w : Span) (k e : Nat) : State :=
  let t := k / 1024
  let v := BitVec.ofNat 64 (putNat w (e * 8) 64 (blockAfter s t k).toNat % 2 ^ 35)
  if tileRuns s t then holdWrite s t 0 (.block k v) else (applyHeld s (.block k v)).1

/-- A write of program register `k`. -/
def writeProg (s : State) (v k : Nat) : State :=
  let t := k / 32
  let x := BitVec.ofNat 32 (v % 2 ^ 18)
  if tileRuns s t then holdWrite s t 0 (.prog k x) else (applyHeld s (.prog k x)).1

/-- The FAR lines of a port: the first and their number (R156). -/
def farSpan (s : State) (t p : Nat) : Option (Nat × Nat) :=
  if getF s (MMP_BIND t p) = 2 then some (getF s (MMP_CFG2 t p), ceilDiv ((getF s (MMP_DEPTH_M1 t p) + 1) * farBytes s t p) 64) else none

/-- Two ranges of a first unit and a number share a unit. -/
def rangesMeet (a b : Nat × Nat) : Bool := decide (max a.1 b.1 < min (a.1 + a.2) (b.1 + b.2))

/-- A port's FAR storage overlaps that of another tile's port, or the region of another partition (R151). -/
def farClash (s : State) (t p : Nat) : Bool :=
  match farSpan s t p with
  | none => false
  | some a =>
    (List.range 32).any (fun i => t / 32 * 32 + i != t &&
      (List.range 32).any (fun q => match farSpan s (t / 32 * 32 + i) q with | some b => rangesMeet a b | none => false))
    || (List.range 16).any (fun o => o != getF s (TILE_PARTITION t) && rangesMeet a (getF s (HBM_BASE o (t / 32)), getF s (HBM_LINES o (t / 32))))

/-- A write of a span of a model memory port's configuration: BUSY while the tile runs; a BIND of 3 and storage that R151 forbids
are refused. The upper bits of MMP_CFG2 are reserved in an ON_DIE port (R152). -/
def writeMmp (s : State) (w : Span) (t p : Nat) : State :=
  if tileRuns s t then barError s 1
  else if w.next s (MMP_BIND t p) = 3 then s
  else
    let s1 := setSpan s w [MMP_BIND t p, MMP_RO t p, MMP_WMASK t p, MMP_OOR_POLICY t p, MMP_OWNER t p, MMP_OWNER_HALF t p,
      MMP_AWIDTH_M1 t p, MMP_DWIDTH_M1 t p, MMP_DEPTH_M1 t p, MMP_CFG2 t p]
    let s2 := if getF s1 (MMP_BIND t p) = 1 then setF s1 (MMP_CFG2 t p) (getF s1 (MMP_CFG2 t p) % 2 ^ 14) else s1
    if farClash s2 t p then s else s2

/-- A write of a span of a tile's registers. -/
def writeTileBlock (s : State) (w : Span) (t : Nat) : State :=
  let s1 := clearLog s w (ASSERT_VALID t) []
  let s2 := clearLog s1 w (EF_VALID t) [EF_SLOT t, EF_ENTRY_HI t, EF_CLUSTER t, EF_ENTRY t, EF_KIND t]
  clearLog s2 w (ME_VALID t) [ME_ADDR t, ME_WRITE t, ME_SEQ t, ME_PORT t, ME_KIND t]

/-! ## A write of any register -/

/-- A write of a span at the word of offset `o`. `w` is the whole span, and a place of one word takes its own part. -/
def writePlace (s : State) (w : Span) (o : Nat) : State :=
  let word := bitsOf w.v (o * 8 - w.b) 32
  match placeOf o with
  | .ident => writeIdent s w
  | .clockSched k => writeSchedule s w k
  | .devroute d => writeDevRoute s w d
  | .rekey st => setSpan s w [RK_BW_PCT st]
  | .power => writePower s w
  | .evPend k => clearPending s 0 k word
  | .evStatus => clearOnes s w [ROUTE_REFUSED]
  | .evRoute e => writeRoute s e word
  | .queuePend k => clearQueuePending s 0 k word
  | .time => writeTime s w
  | .mpd t => setSpan s w [TRUNK_ASYM t]
  | .cmp j => writeCmp s j ((o - cmpBase j) / 4) word
  | .link n => writeLink s w n
  | .queue q => writeQueue s w q
  | .flow f => writeFlow s w f
  | .bar4base f st => setSpan s w [BAR4_BASE f st]
  | .dlog p => writeDlog s w p
  | .crc u => writeUnit s w u
  | .cap => writeCapture s w
  | .capst d => writeCapConfig s w [CAP_BASE_LINE d, CAP_LINES d]
  | .seqst j => writeCapConfig s w (seqConfig j)
  | .mask m => writeMask s w m
  | .trc => writeTrace s w
  | .sel d k =>
    if flag s TRC_EN then s
    else setSpan s w [SEL_PC d k, SEL_HALF d k, SEL_VALID d k, SEL_PC d (k + 1), SEL_HALF d (k + 1), SEL_VALID d (k + 1)]
  | .sp => clearLog (setSpan s w [HOST_ALIAS_BANK, JTAG_ALIAS_BANK]) w SPV_VALID [SPV_BANK, SPV_REQ, SPV_WRITE]
  | .spown b => writeOwner s 1 b (bitsOf word 0 2)
  | .taf => writeTaf s w
  | .tafreg r => writeRegion s w r
  | .fb k => writeFallback s w k
  | .cr r => writeRing s w r
  | .crEvents r k => clearPending s r k word
  | .crQueues r k => clearQueuePending s r k word
  | .block d => writeBlockEntry s w (d * 32768 + o % 0x40000 / 8) (o / 8 * 8)
  | .prog d => writeProg s word (d * 1024 + o % 0x1000 / 4)
  | .tile t => writeTileBlock s w t
  | .mmp t p => writeMmp s w t p
  | _ => s

/-- Each word of a place is a register or entry of its own; other places take a span as one write. -/
def wordPlace (o : Nat) : Bool :=
  match placeOf o with
  | .devroute _ | .evPend _ | .evRoute _ | .queuePend _ | .cmp _ | .spown _ | .crEvents _ _ | .crQueues _ _ | .prog _ | .sel _ _ | .tjAvs => true
  | _ => false

/-- The span of an access. -/
def accessSpan (o : Nat) (wide : Bool) (v : Nat) : Span := ⟨o * 8, if wide then 64 else 32, v⟩

/-- Ones in reserved bits of some word (R17). -/
def reservedOnes (o v : Nat) (l : List Nat) : Bool :=
  l.any (fun x => occupied x && bitsOf v ((x - o) * 8) 32 &&& knownBits x != bitsOf v ((x - o) * 8) 32)

/-- A write of the registers at the words from `o` on: ones in reserved bits and words that no register holds are counted. -/
def writeRegisters (s : State) (o : Nat) (wide : Bool) (v : Nat) : State :=
  let l := wordsFrom o wide
  let s1 := if l.any (fun x => !occupied x) then addF s UNMAPPED_ACCESS 1 else s
  let s2 := if reservedOnes o v l then addF s1 RSVD_WRITE 1 else s1
  (if wordPlace o then l else [o]).foldl (fun a x => writePlace a (accessSpan o wide v) x) s2

/-- A host write through BAR0. -/
def hostStore (s : State) (a : Access) (v : Nat) : State :=
  match barOffset a with
  | none => addF s UNMAPPED_ACCESS 1
  | some o =>
    match hostScratch s o a.wide (some (BitVec.ofNat 64 v)) with
    | some (k, x) => spAccess s k x
    | none => if (wordsFrom o a.wide).any (fencedAt s) then barError s 1 else writeRegisters s o a.wide v

/-! ## Rows of the table -/

/-- REGISTER_WRITE: a host write of 4 or 8 bytes. -/
def execRegisterWrite (a : Access) (v : BitVec 64) (s : State) : Host.Outcome State Fault Refusal :=
  byHost s (fun x => hostStore x a (if a.wide then v.toNat else v.toNat % 2 ^ 32))

/-- RC_READ: a host read; what it reads of RC fields clears. -/
def execRcRead (a : Access) (s : State) : Host.Outcome State Fault Refusal :=
  byHost s (fun x => hostRead x a)

/-- LATCHING_READ: a host read; a low word latches its high word. -/
def execLatchingRead (a : Access) (s : State) : Host.Outcome State Fault Refusal :=
  byHost s (fun x => hostRead x a)

end Sys2Proof.Machine
end

