-- ==== Sys2Proof/Machine/Meanings.lean ====
section
/-!
DEFINITION. Every file of meanings, gathered for the dispatch.
-/
end

