-- ==== Sys2Proof/Machine/Dispatch.lean ====
section
/-!
DEFINITION. The dispatch of the commands to their meanings, one arm per constructor of `Instr`.
-/
namespace Sys2Proof.Machine
open Sys2Proof

/-- The effect of one command on everything but the queue. -/
def exec (i : Instr) (s : State) : Host.Outcome State Fault Refusal :=
  match i with
  | .tick period => Sys2Proof.Machine.execTick period s
  | .nop w => Sys2Proof.Machine.execNop w s
  | .eval w => Sys2Proof.Machine.execEval w s
  | .evalm w => Sys2Proof.Machine.execEvalm w s
  | .lds w => Sys2Proof.Machine.execLds w s
  | .sts w => Sys2Proof.Machine.execSts w s
  | .mpaAddress w => Sys2Proof.Machine.execMpaAddress w s
  | .mpaData w => Sys2Proof.Machine.execMpaData w s
  | .mpgRead w => Sys2Proof.Machine.execMpgRead w s
  | .mpgWrite w => Sys2Proof.Machine.execMpgWrite w s
  | .mpr w => Sys2Proof.Machine.execMpr w s
  | .msr w => Sys2Proof.Machine.execMsr w s
  | .msw w => Sys2Proof.Machine.execMsw w s
  | .mspPop w => Sys2Proof.Machine.execMspPop w s
  | .mspPush w => Sys2Proof.Machine.execMspPush w s
  | .chk w => Sys2Proof.Machine.execChk w s
  | .stopc w => Sys2Proof.Machine.execStopc w s
  | .tpo w => Sys2Proof.Machine.execTpo w s
  | .tpi w => Sys2Proof.Machine.execTpi w s
  | .illegalOp w => Sys2Proof.Machine.execIllegalOp w s
  | .speculativeDecision pc half block => Sys2Proof.Machine.execSpeculativeDecision pc half block s
  | .valueRecord pc rslot => Sys2Proof.Machine.execValueRecord pc rslot s
  | .creditRecord tile entry => Sys2Proof.Machine.execCreditRecord tile entry s
  | .frameClose m die dev => Sys2Proof.Machine.execFrameClose m die dev s
  | .exchangeFrame m lost => Sys2Proof.Machine.execExchangeFrame m lost s
  | .bridgeDown m => Sys2Proof.Machine.execBridgeDown m s
  | .dieDone die => Sys2Proof.Machine.execDieDone die s
  | .commitPhase errs => Sys2Proof.Machine.execCommitPhase errs s
  | .holdPortPush tile port => Sys2Proof.Machine.execHoldPortPush tile port s
  | .commitStall => Sys2Proof.Machine.execCommitStall s
  | .deadlock die => Sys2Proof.Machine.execDeadlock die s
  | .pacedInstant k period => Sys2Proof.Machine.execPacedInstant k period s
  | .pllRelock => Sys2Proof.Machine.execPllRelock s
  | .mmpRequestTake tile port => Sys2Proof.Machine.execMmpRequestTake tile port s
  | .mmpResult tile port seq err => Sys2Proof.Machine.execMmpResult tile port seq err s
  | .seqCtrlRun => Sys2Proof.Machine.execSeqCtrlRun s
  | .seqCtrlStop => Sys2Proof.Machine.execSeqCtrlStop s
  | .registerWrite a v => Sys2Proof.Machine.execRegisterWrite a v s
  | .rcRead a => Sys2Proof.Machine.execRcRead a s
  | .latchingRead a => Sys2Proof.Machine.execLatchingRead a s
  | .imageLoad r p header => Sys2Proof.Machine.execImageLoad r p header s
  | .loadFetchComplete dt body => Sys2Proof.Machine.execLoadFetchComplete dt body s
  | .loadVerifyComplete => Sys2Proof.Machine.execLoadVerifyComplete s
  | .loadCheckComplete => Sys2Proof.Machine.execLoadCheckComplete s
  | .loadWriteComplete => Sys2Proof.Machine.execLoadWriteComplete s
  | .tileWake tile => Sys2Proof.Machine.execTileWake tile s
  | .partialLoadBoundary => Sys2Proof.Machine.execPartialLoadBoundary s
  | .loadRelease => Sys2Proof.Machine.execLoadRelease s
  | .imageAbort r p => Sys2Proof.Machine.execImageAbort r p s
  | .imageUnload r p => Sys2Proof.Machine.execImageUnload r p s
  | .unloadBoundary => Sys2Proof.Machine.execUnloadBoundary s
  | .fwWrite r p data => Sys2Proof.Machine.execFwWrite r p data s
  | .fwActivate r p => Sys2Proof.Machine.execFwActivate r p s
  | .optWrite r p => Sys2Proof.Machine.execOptWrite r p s
  | .optCommit r p => Sys2Proof.Machine.execOptCommit r p s
  | .optRead r p => Sys2Proof.Machine.execOptRead r p s
  | .cfgErrClear => Sys2Proof.Machine.execCfgErrClear s
  | .hello rx => Sys2Proof.Machine.execHello rx s
  | .cycleReport rx => Sys2Proof.Machine.execCycleReport rx s
  | .gopAnnounce rx => Sys2Proof.Machine.execGopAnnounce rx s
  | .gopMark => Sys2Proof.Machine.execGopMark s
  | .agreementReady => Sys2Proof.Machine.execAgreementReady s
  | .sync rx => Sys2Proof.Machine.execSync rx s
  | .snapshotWriteComplete => Sys2Proof.Machine.execSnapshotWriteComplete s
  | .stopNotice rx => Sys2Proof.Machine.execStopNotice rx s
  | .faultNotice rx => Sys2Proof.Machine.execFaultNotice rx s
  | .freeze rx => Sys2Proof.Machine.execFreeze rx s
  | .stopAt r p => Sys2Proof.Machine.execStopAt r p s
  | .snapshotAt r p => Sys2Proof.Machine.execSnapshotAt r p s
  | .resetAt r p => Sys2Proof.Machine.execResetAt r p s
  | .broadcast r p => Sys2Proof.Machine.execBroadcast r p s
  | .barrier r p => Sys2Proof.Machine.execBarrier r p s
  | .setEpoch r p => Sys2Proof.Machine.execSetEpoch r p s
  | .snapArea r p => Sys2Proof.Machine.execSnapArea r p s
  | .restore r p => Sys2Proof.Machine.execRestore r p s
  | .restoreComplete tagFail => Sys2Proof.Machine.execRestoreComplete tagFail s
  | .snapInfo r p => Sys2Proof.Machine.execSnapInfo r p s
  | .exch rx => Sys2Proof.Machine.execExch rx s
  | .exchFlitClose dev => Sys2Proof.Machine.execExchFlitClose dev s
  | .msg rx => Sys2Proof.Machine.execMsg rx s
  | .fill rx => Sys2Proof.Machine.execFill rx s
  | .replayTimeout lane => Sys2Proof.Machine.execReplayTimeout lane s
  | .fecCodeword lane count corrected stuffErr => Sys2Proof.Machine.execFecCodeword lane count corrected stuffErr s
  | .train rx => Sys2Proof.Machine.execTrain rx s
  | .signalDetect lane => Sys2Proof.Machine.execSignalDetect lane s
  | .eqComplete lane => Sys2Proof.Machine.execEqComplete lane s
  | .alignSearchStep lane => Sys2Proof.Machine.execAlignSearchStep lane s
  | .trainingTimeout lane => Sys2Proof.Machine.execTrainingTimeout lane s
  | .backoffExpiry lane => Sys2Proof.Machine.execBackoffExpiry lane s
  | .trunkStart t => Sys2Proof.Machine.execTrunkStart t s
  | .trunkStartTimeout t => Sys2Proof.Machine.execTrunkStartTimeout t s
  | .laneFail lane noFlit => Sys2Proof.Machine.execLaneFail lane noFlit s
  | .recoverReq rx => Sys2Proof.Machine.execRecoverReq rx s
  | .resume rx duration => Sys2Proof.Machine.execResume rx duration s
  | .linkDown t => Sys2Proof.Machine.execLinkDown t s
  | .linkRetrain r p => Sys2Proof.Machine.execLinkRetrain r p s
  | .linkSlip r p => Sys2Proof.Machine.execLinkSlip r p s
  | .linkPrbs r p => Sys2Proof.Machine.execLinkPrbs r p s
  | .linkPrbsRead r p bits errs => Sys2Proof.Machine.execLinkPrbsRead r p bits errs s
  | .linkRejoin r p => Sys2Proof.Machine.execLinkRejoin r p s
  | .prbsClr lane => Sys2Proof.Machine.execPrbsClr lane s
  | .retryNow lane => Sys2Proof.Machine.execRetryNow lane s
  | .timeSyncSend => Sys2Proof.Machine.execTimeSyncSend s
  | .timeSync rx residence => Sys2Proof.Machine.execTimeSync rx residence s
  | .pdelayInterval => Sys2Proof.Machine.execPdelayInterval s
  | .pdelayReq rx turnaround => Sys2Proof.Machine.execPdelayReq rx turnaround s
  | .pdelayResp rx => Sys2Proof.Machine.execPdelayResp rx s
  | .pdelayTimeout t => Sys2Proof.Machine.execPdelayTimeout t s
  | .lossOfMaster => Sys2Proof.Machine.execLossOfMaster s
  | .ethSync frame seq twoStep sec ns corr => Sys2Proof.Machine.execEthSync frame seq twoStep sec ns corr s
  | .followUp frame seq sec ns corr => Sys2Proof.Machine.execFollowUp frame seq sec ns corr s
  | .delayReq frame seq requester => Sys2Proof.Machine.execDelayReq frame seq requester s
  | .delayResp frame seq sec ns corr => Sys2Proof.Machine.execDelayResp frame seq sec ns corr s
  | .announce frame body => Sys2Proof.Machine.execAnnounce frame body s
  | .timeGet r p => Sys2Proof.Machine.execTimeGet r p s
  | .timeSet r p => Sys2Proof.Machine.execTimeSet r p s
  | .timeStep r p => Sys2Proof.Machine.execTimeStep r p s
  | .timeRate r p => Sys2Proof.Machine.execTimeRate r p s
  | .rateAdj v => Sys2Proof.Machine.execRateAdj v s
  | .comparatorFire j => Sys2Proof.Machine.execComparatorFire j s
  | .comparatorWrite j w v => Sys2Proof.Machine.execComparatorWrite j w v s
  | .haltInput a b us => Sys2Proof.Machine.execHaltInput a b us s
  | .haltDiscrepancy => Sys2Proof.Machine.execHaltDiscrepancy s
  | .discClear => Sys2Proof.Machine.execDiscClear s
  | .doorbell fn q v => Sys2Proof.Machine.execDoorbell fn q v s
  | .hostRecordFetch q records uncorr => Sys2Proof.Machine.execHostRecordFetch q records uncorr s
  | .spillRefill q tagFail => Sys2Proof.Machine.execSpillRefill q tagFail s
  | .outboundRecordWrite q uncorr => Sys2Proof.Machine.execOutboundRecordWrite q uncorr s
  | .remoteForward q uncorr => Sys2Proof.Machine.execRemoteForward q uncorr s
  | .flowRelease flow => Sys2Proof.Machine.execFlowRelease flow s
  | .hringEn q => Sys2Proof.Machine.execHringEn q s
  | .evTimer q => Sys2Proof.Machine.execEvTimer q s
  | .flr fn => Sys2Proof.Machine.execFlr fn s
  | .bar4Access fn off a err stale => Sys2Proof.Machine.execBar4Access fn off a err stale s
  | .queueGet r p => Sys2Proof.Machine.execQueueGet r p s
  | .queueSet r p => Sys2Proof.Machine.execQueueSet r p s
  | .queueStats r p => Sys2Proof.Machine.execQueueStats r p s
  | .portGet r p => Sys2Proof.Machine.execPortGet r p s
  | .flowSet r p => Sys2Proof.Machine.execFlowSet r p s
  | .crcSet r p => Sys2Proof.Machine.execCrcSet r p s
  | .dlogSet r p => Sys2Proof.Machine.execDlogSet r p s
  | .acqCtrlArm => Sys2Proof.Machine.execAcqCtrlArm s
  | .acqCtrlArmAt => Sys2Proof.Machine.execAcqCtrlArmAt s
  | .acqCtrlDisarm => Sys2Proof.Machine.execAcqCtrlDisarm s
  | .acqCtrlForce => Sys2Proof.Machine.execAcqCtrlForce s
  | .autoTrigger => Sys2Proof.Machine.execAutoTrigger s
  | .acqArm r p => Sys2Proof.Machine.execAcqArm r p s
  | .acqDisarm r p => Sys2Proof.Machine.execAcqDisarm r p s
  | .acqForce r p => Sys2Proof.Machine.execAcqForce r p s
  | .acqStatus r p => Sys2Proof.Machine.execAcqStatus r p s
  | .capMapRead r p => Sys2Proof.Machine.execCapMapRead r p s
  | .trcEnable r p => Sys2Proof.Machine.execTrcEnable r p s
  | .trcDisable r p => Sys2Proof.Machine.execTrcDisable r p s
  | .trcOverflow => Sys2Proof.Machine.execTrcOverflow s
  | .syncPoint => Sys2Proof.Machine.execSyncPoint s
  | .scrub corrected uncorrectable => Sys2Proof.Machine.execScrub corrected uncorrectable s
  | .muxForced clk => Sys2Proof.Machine.execMuxForced clk s
  | .toutTransfer => Sys2Proof.Machine.execToutTransfer s
  | .tinCommit => Sys2Proof.Machine.execTinCommit s
  | .tafOutputs r p => Sys2Proof.Machine.execTafOutputs r p s
  | .tafStatus r p => Sys2Proof.Machine.execTafStatus r p s
  | .tafClksel r p => Sys2Proof.Machine.execTafClksel r p s
  | .tafClkcfg r p => Sys2Proof.Machine.execTafClkcfg r p s
  | .tafFifoStats r p => Sys2Proof.Machine.execTafFifoStats r p s
  | .fallbackDataWrite k v => Sys2Proof.Machine.execFallbackDataWrite k v s
  | .fallbackDataRead k => Sys2Proof.Machine.execFallbackDataRead k s
  | .fallbackRxByte k b nak => Sys2Proof.Machine.execFallbackRxByte k b nak s
  | .partTileSet r p => Sys2Proof.Machine.execPartTileSet r p s
  | .partRegionSet r p => Sys2Proof.Machine.execPartRegionSet r p s
  | .setRights r p => Sys2Proof.Machine.execSetRights r p s
  | .rightsDrain => Sys2Proof.Machine.execRightsDrain s
  | .keyInstall r p => Sys2Proof.Machine.execKeyInstall r p s
  | .keyErase r p => Sys2Proof.Machine.execKeyErase r p s
  | .sealKeySet r p => Sys2Proof.Machine.execSealKeySet r p s
  | .rekey r p => Sys2Proof.Machine.execRekey r p s
  | .rekeyLine stack tagFail => Sys2Proof.Machine.execRekeyLine stack tagFail s
  | .snapExport r p => Sys2Proof.Machine.execSnapExport r p s
  | .snapImport r p => Sys2Proof.Machine.execSnapImport r p s
  | .dikGet r p => Sys2Proof.Machine.execDikGet r p s
  | .alarmClear => Sys2Proof.Machine.execAlarmClear s
  | .sqProd r v unknown => Sys2Proof.Machine.execSqProd r v unknown s
  | .cqCons r v => Sys2Proof.Machine.execCqCons r v s
  | .crEn r en => Sys2Proof.Machine.execCrEn r en s
  | .blockWrite block pec => Sys2Proof.Machine.execBlockWrite block pec s
  | .blockRead => Sys2Proof.Machine.execBlockRead s
  | .commandDatagram datagram => Sys2Proof.Machine.execCommandDatagram datagram s
  | .idGet r p => Sys2Proof.Machine.execIdGet r p s
  | .clusterMapGet r p => Sys2Proof.Machine.execClusterMapGet r p s
  | .faultGet r p => Sys2Proof.Machine.execFaultGet r p s
  | .mgmtKeySet r p => Sys2Proof.Machine.execMgmtKeySet r p s
  | .echo r p => Sys2Proof.Machine.execEcho r p s
  | .powerSet r p => Sys2Proof.Machine.execPowerSet r p s
  | .deviceReset r p => Sys2Proof.Machine.execDeviceReset r p s
  | .deviceResetBegin => Sys2Proof.Machine.execDeviceResetBegin s
  | .fence r p => Sys2Proof.Machine.execFence r p s
  | .fenceAck die index => Sys2Proof.Machine.execFenceAck die index s
  | .fenceForced die index tags => Sys2Proof.Machine.execFenceForced die index tags s
  | .stepClockSet r p => Sys2Proof.Machine.execStepClockSet r p s
  | .powerStatus r p => Sys2Proof.Machine.execPowerStatus r p s
  | .run r p => Sys2Proof.Machine.execRun r p s
  | .stop r p => Sys2Proof.Machine.execStop r p s
  | .runStatus r p => Sys2Proof.Machine.execRunStatus r p s
  | .seqSet r p => Sys2Proof.Machine.execSeqSet r p s
  | .peek r p err => Sys2Proof.Machine.execPeek r p err s
  | .deposit r p err => Sys2Proof.Machine.execDeposit r p err s
  | .force r p => Sys2Proof.Machine.execForce r p s
  | .release r p => Sys2Proof.Machine.execRelease r p s
  | .forceList r p => Sys2Proof.Machine.execForceList r p s
  | .memTest r p => Sys2Proof.Machine.execMemTest r p s
  | .errInject r p => Sys2Proof.Machine.execErrInject r p s
  | .miscompare tags => Sys2Proof.Machine.execMiscompare tags s
  | .ringTimeout who tag gen cmd => Sys2Proof.Machine.execRingTimeout who tag gen cmd s
  | .lateCompletion tag gen => Sys2Proof.Machine.execLateCompletion tag gen s
  | .quarantineExpiry tag => Sys2Proof.Machine.execQuarantineExpiry tag s
  | .wdogKick => Sys2Proof.Machine.execWdogKick s
  | .wdogWarn => Sys2Proof.Machine.execWdogWarn s
  | .watchdog => Sys2Proof.Machine.execWatchdog s
  | .watchdogReset => Sys2Proof.Machine.execWatchdogReset s
  | .spOwner bank who owner => Sys2Proof.Machine.execSpOwner bank who owner s
  | .ownerHandover bank => Sys2Proof.Machine.execOwnerHandover bank s
  | .scratchpadAccess a err used => Sys2Proof.Machine.execScratchpadAccess a err used s
  | .setAliasWrite a => Sys2Proof.Machine.execSetAliasWrite a s
  | .clearAliasWrite a => Sys2Proof.Machine.execClearAliasWrite a s
  | .evPendClear fn queue w v => Sys2Proof.Machine.execEvPendClear fn queue w v s
  | .evRoute src v => Sys2Proof.Machine.execEvRoute src v s
  | .uartCharacter c stop read => Sys2Proof.Machine.execUartCharacter c stop read s
  | .uartBreak => Sys2Proof.Machine.execUartBreak s
  | .railGood rail volt => Sys2Proof.Machine.execRailGood rail volt s
  | .railLoss rail => Sys2Proof.Machine.execRailLoss rail s
  | .strapLatch cfg => Sys2Proof.Machine.execStrapLatch cfg s
  | .bootCopy stage passA passB ownerKey => Sys2Proof.Machine.execBootCopy stage passA passB ownerKey s
  | .bringUpComplete => Sys2Proof.Machine.execBringUpComplete s
  | .resetN ns => Sys2Proof.Machine.execResetN ns s
  | .resetRelease => Sys2Proof.Machine.execResetRelease s
  | .blockResetComplete die index => Sys2Proof.Machine.execBlockResetComplete die index s
  | .perstN => Sys2Proof.Machine.execPerstN s
  | .refclkLoss clk => Sys2Proof.Machine.execRefclkLoss clk s
  | .avsWriteAck die => Sys2Proof.Machine.execAvsWriteAck die s
  | .avsTimeout die => Sys2Proof.Machine.execAvsTimeout die s
  | .thermalSample t0 t1 t2 t3 t4 => Sys2Proof.Machine.execThermalSample t0 t1 t2 t3 t4 s
  | .throttleStepDown => Sys2Proof.Machine.execThrottleStepDown s
  | .throttleStepUp => Sys2Proof.Machine.execThrottleStepUp s
  | .refclkReturn clk => Sys2Proof.Machine.execRefclkReturn clk s
  | .prbsCheckerLock b => Sys2Proof.Machine.execPrbsCheckerLock b s
  | .prbsLockLoss lane bits errs => Sys2Proof.Machine.execPrbsLockLoss lane bits errs s
  | .fabricClockEdge edges mhz => Sys2Proof.Machine.execFabricClockEdge edges mhz s
  | .targetPinInput pin level => Sys2Proof.Machine.execTargetPinInput pin level s
  | .ethSyncSend => Sys2Proof.Machine.execEthSyncSend s
  | .ethDelayReqSend => Sys2Proof.Machine.execEthDelayReqSend s
  | .snapExportComplete => Sys2Proof.Machine.execSnapExportComplete s
  | .snapImportComplete copy tagFail => Sys2Proof.Machine.execSnapImportComplete copy tagFail s
  | .memTestComplete tile errors first => Sys2Proof.Machine.execMemTestComplete tile errors first s
  | .optCommitComplete readBack => Sys2Proof.Machine.execOptCommitComplete readBack s
  | .traceDrainComplete => Sys2Proof.Machine.execTraceDrainComplete s
  | .muxSwitchComplete clk => Sys2Proof.Machine.execMuxSwitchComplete clk s
  | .muleSwitchoverComplete us => Sys2Proof.Machine.execMuleSwitchoverComplete us s
  | .muleSelftestComplete pass => Sys2Proof.Machine.execMuleSelftestComplete pass s
  | .bridgeRetrain m => Sys2Proof.Machine.execBridgeRetrain m s
  | .bridgeRetrainComplete m => Sys2Proof.Machine.execBridgeRetrainComplete m s
  | .gopSlotRead slot => Sys2Proof.Machine.execGopSlotRead slot s
  | .flitCrcFail b => Sys2Proof.Machine.execFlitCrcFail b s
  | .hostLinkDmaError target => Sys2Proof.Machine.execHostLinkDmaError target s
  | .perstNRelease => Sys2Proof.Machine.execPerstNRelease s
  | .jtagInstruction ir => Sys2Proof.Machine.execJtagInstruction ir s

end Sys2Proof.Machine
end

