-- ==== Sys2Proof/Machine/Idle.lean ====
section
/-!
DEFINITION. What happens by itself in one period of the 500 MHz time clock, 2 ns: what `step` does when no command waits.
-/
namespace Sys2Proof.Machine
open Sys2Proof Reg

/-- Capture staging of each die drains into its stack at 16 GB/s: 32 bytes in a period (R383). -/
def drainStaging (s : State) : State :=
  { s with acq := { s.acq with stage := (List.range 4).foldl (fun m d => mset m 0 d (mget m 0 d - 32)) s.acq.stage } }

/-- One period: local time goes on (R311), Mule retires instructions (R387), the trace funnel writes one packet (R388), the staging drains, the fall-back blocks shift
(R415), and each lane has one flit slot (R292, R295). The blocks of the hub core stand still while it has no clock. -/
def idlePeriod (s : State) : State :=
  let s1 := timePeriod s
  if hubClock s1 then laneSlots (fallbackPeriod (drainStaging (serveOne (retireMule s1)))) (List.range 96) else s1

end Sys2Proof.Machine
end

