-- ==== Sys2Proof/Safety.lean ====
section
/-!
DEFINITION. The terms that statements use: what a safe run is, the invariant of the tables and memories, which parts of the state a
command may change, and the conditions under which words and command packets run.
-/
namespace Sys2Proof.Safety
open Sys2Proof Machine Reg

/-- The step from a state answers a next state. -/
def Completes (s : State) : Prop := ∃ t, step s = .next t

/-! ## The invariant -/

/-- The memories of a stored snapshot are in canonical form. -/
def SnapshotInv (c : Option Snapshot) : Prop := ∀ x, c = some x → Memory.wf x.mem = true ∧ Memory.wf x.hbm = true

/-- Every memory is in canonical form, the registers stand in the order of their addresses, and the nanoseconds of local time are
below one second. -/
structure Inv (s : State) : Prop where
  regs : Map.sorted s.regs = true
  onDie : Memory.wf s.eng.mem = true
  hbm : Memory.wf s.hbm = true
  host : Memory.wf s.host = true
  scratch : Memory.wf s.sp = true
  trace : Memory.wf s.trc.buffer = true
  banks : Memory.wf s.nv.banks = true
  personality : Memory.wf s.nv.personality = true
  eventLog : Memory.wf s.nv.log = true
  config : Memory.wf s.taf.cfg = true
  bram : Memory.wf s.taf.bram = true
  snapshots : ∀ e ∈ s.sys.contents, SnapshotInv e.2
  ns : s.time.ns < 1000000000

/-! ## Frames -/

/-- Every register field keeps its value but those of the listed groups: a group is a field for every number. -/
def SameFields (groups : List (Nat → Field)) (s t : State) : Prop :=
  ∀ f : Field, (∀ g ∈ groups, ∀ n, f.key ≠ (g n).key) → getF t f = getF s f

/-! ## Words -/

/-- The word at `w` issues in `s` without a fault and executes; `u` is the state in which it executes: its step has begun (R81, R118). -/
abbrev Issues (s u : State) (w : Site) : Prop :=
  stepClock s = true ∧ admission s w = .issue u ∧ verdict u w = ⟨[], true⟩

/-- Between `s` and `t` local slot `slot` of cluster `pc` takes a value, and every other local slot and every state bit keeps its own. -/
def SlotWritten (s t : State) (pc slot : Nat) (v : Bool) : Prop :=
  mget t.eng.slot false (pc * 2048 + slot) = v
    ∧ (∀ k, k ≠ pc * 2048 + slot → mget t.eng.slot false k = mget s.eng.slot false k)
    ∧ t.eng.cur = s.eng.cur ∧ t.eng.nxt = s.eng.nxt

/-- No local slot and no state bit changes between `s` and `t`. -/
abbrev SlotsKept (s t : State) : Prop := t.eng.slot = s.eng.slot ∧ t.eng.cur = s.eng.cur ∧ t.eng.nxt = s.eng.nxt

/-- Between `s` and `t` no model memory changes, and of the model memory ports at most port `p` of tile `tile`. -/
abbrev OnlyPort (s t : State) (tile p : Nat) : Prop :=
  (∀ k, k ≠ tile * 32 + p → mget t.eng.mmp .empty k = mget s.eng.mmp .empty k) ∧ t.eng.mem = s.eng.mem ∧ t.hbm = s.hbm

/-! ## Flits -/

/-- The flit is acted on as it arrives, in state `u`: it comes in its lane's order, the turn of the trunk stream is its own, and no other
flit of trunk `k` waits (R293, R294). -/
def Delivered (s : State) (rx : Rx) (u : State) (k : Nat) : Prop :=
  ∃ a n, takeFlit s rx = .accepted a k ∧ nextHeld a k = some (n, ⟨rx.type, rx.payload⟩) ∧ heldCount a k = 1 ∧ u = popHeld a k n

/-! ## Command packets -/

/-- A packet passes the checks common to all commands, with LENGTH `n` (R455, R456, R459). -/
abbrev Checked (s : State) (q : Request) (n : Nat) (u : ScopeUse) : Prop :=
  q.version = 1 ∧ q.length = n ∧ q.params.length = n ∧ n ≤ 240 ∧ q.flags < 4 ∧ q.rsvd = 0 ∧ scopeOk s u q = true
    ∧ (callsOf s q.via).any (fun x => x.tag == q.tag) = false ∧ standbyOk s q = true

/-- The state after the final reply to a packet, with its status and payload. -/
def replied (s : State) (q : Request) (status : Nat) (payload : List Byte) : State :=
  sendReply s q.via q.opcode q.tag status payload (bitOf q.flags 0)

/-- The state after the reply PENDING to a packet, and the number of its call. -/
def pended (s : State) (q : Request) : State × Nat :=
  let p := openCall s q (scPart q)
  (sendReply p.1 q.via q.opcode q.tag rsPending [] false, p.2)

/-- A packet with operation code `op` is the next that Mule fetches from ring `r` (R452, R460), and it passes the checks common to all
commands, with LENGTH `n`. -/
abbrev Fetched (s : State) (r : BitVec 5) (op : Nat) (p : Packet) (n : Nat) (u : ScopeUse) : Prop :=
  canFetch s r.toNat p.flags.toNat = true ∧ Checked (countFetch s r.toNat) (ringRequest r.toNat op p) n u

/-- The state after the final reply to a packet of a ring. -/
def answered (s : State) (r : BitVec 5) (op : Nat) (p : Packet) (status : Nat) (payload : List Byte) : State :=
  replied s (ringRequest r.toNat op p) status payload

/-- The transport of a packet has room for one more outstanding command (R460). -/
abbrev RoomFor (s : State) (q : Request) : Prop := (callsOf s q.via).length < 64

end Sys2Proof.Safety
end

