-- ==== Sys2Proof/Certificates/Slice0/Obligations.lean ====
section
/-!
DEFINITION. The statements for the provers.
-/
open Sys2Proof Machine Reg

/-- The command at the front of the queue is the one that a step runs. -/
def Obligations.StepRunsFront : Prop :=
  ∀ (c : Instr) (s : State) (rest : List Instr), step { s with pending := c :: rest } = exec c { s with pending := rest }

/-- Every command completes in every state, and none changes the queue of those that wait. That a command which arrives out of place
changes nothing, or only counters, is the model's reading (log entry 2). -/
def Obligations.NoCommandStops : Prop :=
  ∀ (c : Instr) (s : State), ∃ t, exec c s = .next t ∧ t.pending = s.pending

/-- Every step, of a command or of the time clock on an empty queue, keeps the invariant. -/
def Obligations.StepKeepsInv : Prop := ∀ (s t : State), Safety.Inv s → step s = .next t → Safety.Inv t

/-- The state after reset meets the invariant. -/
def Obligations.ResetMeetsInv : Prop := Safety.Inv State.reset

/-- What reset leaves: the values the register tables give. -/
def Obligations.ResetValues : Prop :=
  State.reset.pending = [] ∧ getF State.reset SEQ_STATE = 0 ∧ getF State.reset CYCLE_NUM = 0
    ∧ getF State.reset IN_CYCLE = 0 ∧ getF State.reset IN_COMMIT = 0 ∧ getF State.reset FAULT_CODE = 0
    ∧ (∀ e, pendingEv State.reset e = false) ∧ nowNs State.reset = 0 ∧ getF State.reset SKEW_LIMIT = 8
    ∧ getF State.reset NOPROGRESS_LIMIT = 1000000

/-- An idle step: the model's choice (log entry 3). -/
def Obligations.IdleStep : Prop :=
  ∀ s : State, s.pending = [] → ∃ t, step s = .next t ∧ t.pending = []
    ∧ { t with regs := s.regs, trc := s.trc, host := s.host, hbm := s.hbm, sec := s.sec, time := s.time, acq := s.acq, lnk := s.lnk, taf := s.taf, sys := s.sys, qs := s.qs, ctl := s.ctl } = s
    ∧ { t.ctl with msixPba := s.ctl.msixPba, msixSent := s.ctl.msixSent } = s.ctl
    ∧ { t.sys with ops := s.sys.ops } = s.sys ∧ { t.qs with requester := s.qs.requester } = s.qs
    ∧ t.sys.ops.map (fun g => { g with fired := false }) = s.sys.ops.map (fun g => { g with fired := false })
    ∧ getF t SEQ_STATE = getF s SEQ_STATE ∧ getF t CYCLE_NUM = getF s CYCLE_NUM
    ∧ (s.pw.boot = .up → getF s RATE_ADJ = 0 → s.time.ns + 2 < 1000000000 →
        t.time = { s.time with ns := s.time.ns + 2, periods := s.time.periods + 1 })

/-- The logic words, one clause per row: NOP (R76), EVAL (R57), EVALM with its enable 1 and 0 (R58), LDS (R59), STS (R60). Operands are
read in the state in which the word issues (R41). -/
def Obligations.LogicWords : Prop :=
  ∀ (s u : State) (w : Site), Safety.Issues s u w →
    let pc := w.pc.toNat
    let word := wordAt s pc w.half w.bp.toNat w.step.toNat
    let net := fun x => readNet u pc w.half x
    let abc := (net (cOf word)).toNat * 4 + (net (bOf word)).toNat * 2 + (net (aOf word)).toNat
    (opcOf word = 0x00 → exec (.nop w) s = .next u ∧ Safety.SlotsKept s u)
    ∧ (opcOf word = 0x01 → ∃ t, exec (.eval w) s = .next t
        ∧ Safety.SlotWritten s t pc (dstOf word) (bitOf (ttOf word) ((net (dOf word)).toNat * 8 + abc)))
    ∧ (opcOf word = 0x04 → net (dOf word) = true → ∃ t, exec (.evalm w) s = .next t
        ∧ Safety.SlotWritten s t pc (dstOf word) (bitOf (ttOf word) abc))
    ∧ (opcOf word = 0x04 → net (dOf word) = false → ∃ t, exec (.evalm w) s = .next t ∧ Safety.SlotsKept s t)
    ∧ (opcOf word = 0x02 → ∃ t, exec (.lds w) s = .next t
        ∧ Safety.SlotWritten s t pc (dstOf word) (mget s.eng.cur false (stateKey s pc w.half (saddrOf word))))
    ∧ (opcOf word = 0x03 → ∃ t, exec (.sts w) s = .next t
        ∧ mget t.eng.nxt false (stateKey s pc w.half (saddrOf word)) = net (aOf word)
        ∧ (∀ k, k ≠ stateKey s pc w.half (saddrOf word) → mget t.eng.nxt false k = mget s.eng.nxt false k)
        ∧ t.eng.slot = s.eng.slot ∧ t.eng.cur = s.eng.cur)

/-- The words of model memory ports: MPA (R64), MPG (R65, R158, R166), MPR (R66). A request carries the registers as all earlier steps
left them (R157). None of them writes model memory. -/
def Obligations.MemoryWords : Prop :=
  ∀ (s u : State) (w : Site), Safety.Issues s u w →
    let pc := w.pc.toNat
    let word := wordAt s pc w.half w.bp.toNat w.step.toNat
    let t := tileOfPc pc
    let p := portOf word
    let a := readNet u pc w.half (aOf word)
    let m := mmpAt s t p
    let old := m.stamp = w.step.toNat + 1
    let req := fun wr : Bool => (⟨seqOf word, if old then m.addr0 else m.addr, if old then m.data0 else m.data, wr, pc, w.half,
      w.bp.toNat, w.step.toNat, false, false⟩ : MmpAccess)
    let same := fun x : State => (mmpAt x t p).requests = m.requests ∧ (mmpAt x t p).writes = m.writes ∧ (mmpAt x t p).results = m.results
    let kept := fun x : State => (mmpAt x t p).addr = m.addr ∧ (mmpAt x t p).data = m.data ∧ (mmpAt x t p).flying = m.flying
    (opcOf word = 0x08 → selOf word = false → ∃ x, exec (.mpaAddress w) s = .next x
        ∧ (∀ i, i < 40 → (mmpAt x t p).addr.getLsbD i = if i = bitIdxOf word then a else m.addr.getLsbD i)
        ∧ (mmpAt x t p).data = m.data ∧ same x ∧ Safety.OnlyPort s x t p ∧ Safety.SlotsKept s x)
    ∧ (opcOf word = 0x08 → selOf word = true → ∃ x, exec (.mpaData w) s = .next x
        ∧ (∀ i, i < 256 → (mmpAt x t p).data.getLsbD i = if i = bitIdxOf word then a else m.data.getLsbD i)
        ∧ (mmpAt x t p).addr = m.addr ∧ same x ∧ Safety.OnlyPort s x t p ∧ Safety.SlotsKept s x)
    ∧ (opcOf word = 0x09 → selOf word = false → a = true → ∃ x, exec (.mpgRead w) s = .next x
        ∧ (mmpAt x t p).requests = m.requests ++ [req false] ∧ (mmpAt x t p).results = m.results
        ∧ getF x (MMP_READS t p) = min (getF s (MMP_READS t p) + 1) (2 ^ 64 - 1)
        ∧ kept x ∧ Safety.OnlyPort s x t p ∧ Safety.SlotsKept s x)
    ∧ (opcOf word = 0x09 → selOf word = false → a = false → ∃ x, exec (.mpgRead w) s = .next x
        ∧ (mmpAt x t p).results = m.results ++ [(seqOf word, 0)] ∧ (mmpAt x t p).requests = m.requests
        ∧ kept x ∧ Safety.OnlyPort s x t p ∧ Safety.SlotsKept s x)
    ∧ (opcOf word = 0x09 → selOf word = true → a = true → flag s (MMP_RO t p) = false → ∃ x, exec (.mpgWrite w) s = .next x
        ∧ (mmpAt x t p).writes = m.writes ++ [req true] ∧ (mmpAt x t p).requests = m.requests ++ [req true]
        ∧ kept x ∧ Safety.OnlyPort s x t p ∧ Safety.SlotsKept s x)
    ∧ (opcOf word = 0x09 → selOf word = true → a = true → flag s (MMP_RO t p) = true → ∃ x, exec (.mpgWrite w) s = .next x
        ∧ (mmpAt x t p).writes = m.writes ∧ (mmpAt x t p).requests = m.requests
        ∧ getF x (MMP_WDROP t p) = min (getF s (MMP_WDROP t p) + 1) (2 ^ 16 - 1)
        ∧ kept x ∧ Safety.OnlyPort s x t p ∧ Safety.SlotsKept s x)
    ∧ (opcOf word = 0x09 → selOf word = true → a = false → ∃ x, exec (.mpgWrite w) s = .next x
        ∧ (mmpAt x t p).writes = m.writes ∧ (mmpAt x t p).requests = m.requests
        ∧ kept x ∧ Safety.OnlyPort s x t p ∧ Safety.SlotsKept s x)
    ∧ (opcOf word = 0x0A → ∃ x, exec (.mpr w) s = .next x
        ∧ Safety.SlotWritten s x pc (dstOf word) (((m.results.lookup (seqOf word)).getD 0).getLsbD (bitIdxOf word))
        ∧ x.eng.mmp = s.eng.mmp ∧ x.eng.mem = s.eng.mem ∧ x.hbm = s.hbm)

/-- The words of message ports and target bits: MSR (R68), MSW (R69), MSP (R70), TPO (R72), TPI (R73). -/
def Obligations.MessageAndTargetWords : Prop :=
  ∀ (s u : State) (w : Site), Safety.Issues s u w →
    let pc := w.pc.toNat
    let word := wordAt s pc w.half w.bp.toNat w.step.toNat
    let i := tileOfPc pc * 16 + portOf word
    let a := readNet u pc w.half (aOf word)
    let m := msgAt s i
    (opcOf word = 0x0C → ∃ x, exec (.msr w) s = .next x ∧ Safety.SlotWritten s x pc (dstOf word) (msgBit s i (bitIdxOf word))
        ∧ msgAt x i = m)
    ∧ (opcOf word = 0x0D → bitIdxOf word < msgWidth s i → ∃ x, exec (.msw w) s = .next x
        ∧ (∀ j, j < 256 → (msgAt x i).out.getLsbD j = if j = bitIdxOf word then a else m.out.getLsbD j) ∧ Safety.SlotsKept s x)
    ∧ (opcOf word = 0x0D → msgWidth s i ≤ bitIdxOf word → ∃ x, exec (.msw w) s = .next x ∧ msgAt x i = m ∧ Safety.SlotsKept s x)
    ∧ (opcOf word = 0x0E → selOf word = false → ∃ x, exec (.mspPop w) s = .next x
        ∧ msgAt x i = { m with pop := a || m.pop } ∧ Safety.SlotsKept s x)
    ∧ (opcOf word = 0x0E → selOf word = true → ∃ x, exec (.mspPush w) s = .next x
        ∧ msgAt x i = { m with push := a || m.push } ∧ Safety.SlotsKept s x)
    ∧ (opcOf word = 0x12 → ∃ x, exec (.tpo w) s = .next x
        ∧ mget x.cyc.driven none (portOf word * 256 + bitIdxOf word) = some a ∧ Safety.SlotsKept s x)
    ∧ (opcOf word = 0x13 → ∃ x, exec (.tpi w) s = .next x
        ∧ Safety.SlotWritten s x pc (dstOf word) (mget s.cyc.tin false (portOf word * 256 + bitIdxOf word)))

/-- CHK (R74), STOPC (R75) and ILLEGAL_OP (R54, R82). -/
def Obligations.CheckWords : Prop :=
  ∀ (s u : State) (w : Site), stepClock s = true → admission s w = .issue u →
    let pc := w.pc.toNat
    let word := wordAt s pc w.half w.bp.toNat w.step.toNat
    let net := fun x => readNet u pc w.half x
    let t := tileOfPc pc
    let loc := locOf s pc w.half w.bp.toNat w.step.toNat
    let clock := issueClock u pc w.half w.step.toNat
    let bad := (net (aOf word) != net (bOf word)) && net (cOf word)
    (opcOf word = 0x10 → verdict u w = ⟨[], true⟩ → bad = true → ∃ x, exec (.chk w) s = .next x
        ∧ getF x (ASSERT_COUNT t) = min (getF s (ASSERT_COUNT t) + 1) (2 ^ 32 - 1)
        ∧ (flag s (ASSERT_VALID t) = false → flag x (ASSERT_VALID t) = true ∧ getF x (ASSERT_LOCATION t) = loc % 2 ^ 64
            ∧ getF x (ASSERT_CYCLE t) = getF s CYCLE_NUM % 2 ^ 48) ∧ Safety.SlotsKept s x)
    ∧ (opcOf word = 0x10 → verdict u w = ⟨[], true⟩ → bad = false → ∃ x, exec (.chk w) s = .next x
        ∧ getF x (ASSERT_COUNT t) = getF s (ASSERT_COUNT t) ∧ getF x (ASSERT_VALID t) = getF s (ASSERT_VALID t) ∧ Safety.SlotsKept s x)
    ∧ (opcOf word = 0x11 → verdict u w = ⟨[], true⟩ → ∃ x, exec (.stopc w) s = .next x
        ∧ x.cyc.stopc = (if net (aOf word) then some (match s.cyc.stopc with
            | some old => if clock < old.1 ∨ (clock = old.1 ∧ loc < old.2) then (clock, loc) else old
            | none => (clock, loc)) else s.cyc.stopc)
        ∧ Safety.SlotsKept s x)
    ∧ (illegalOpc (opcOf word) = true → verdict u w = ⟨[0x0101], false⟩ → ∃ x, exec (.illegalOp w) s = .next x
        ∧ Safety.SlotsKept s x
        ∧ (getF s FAULT_CODE = 0 → flag s IN_COMMIT = false → getF x FAULT_CODE = 0x0101 ∧ getF x FAULT_LOC = loc % 2 ^ 64))

/-- The commands of the major cycle: TICK (R136), PACED_INSTANT (R139), DIE_DONE (R130), COMMIT_PHASE (R131), HOLD_PORT_PUSH (R134, R353),
COMMIT_STALL (R134), DEADLOCK (R144), PLL_RELOCK (R36), SPECULATIVE_DECISION (R125). -/
def Obligations.CycleCommands : Prop :=
  ∀ s : State,
    (∀ period : BitVec 32, releaseReady s = true → flag s SEQ_MODE = false → skewBlocks s = false → throttled s = false →
      tilesMissing s = [] → (runningHalves s).all (fun k => tableGood s (pcOf k) (halfB k)) = true →
      ∃ t, exec (.tick period) s = .next t ∧ flag t IN_CYCLE = true ∧ t.eng.nxt = s.eng.cur ∧ t.eng.cur = s.eng.cur
        ∧ t.eng.slot = s.eng.slot ∧ t.eng.half = [] ∧ t.eng.mmp = clearMmps s.eng.mmp (fun _ => true) ∧ getF t LAST_PERIOD = period.toNat
        ∧ getF t CYCLE_NUM = getF s CYCLE_NUM)
    ∧ (∀ period : BitVec 32, releaseReady s = true → flag s SEQ_MODE = true → s.cyc.instant < instantsPassed s →
      skewBlocks s = false → throttled s = false → tilesMissing s = [] →
      (runningHalves s).all (fun k => tableGood s (pcOf k) (halfB k)) = true →
      ∃ t, exec (.pacedInstant s.cyc.instant period) s = .next t ∧ flag t IN_CYCLE = true ∧ t.eng.nxt = s.eng.cur
        ∧ t.cyc.instant = s.cyc.instant + 1)
    ∧ (∀ period : BitVec 32, flag s SEQ_MODE = true → getF s SEQ_STATE = 2 → s.cyc.instant < instantsPassed s →
      atBoundary s = false → ∃ t, exec (.pacedInstant s.cyc.instant period) s = .next t ∧ flag t OVERRUN = true
        ∧ getF t OVERRUN_COUNT = min (getF s OVERRUN_COUNT + 1) (2 ^ 32 - 1) ∧ t.eng = s.eng)
    ∧ (∀ die : BitVec 2, flag s IN_CYCLE = true → dieReady s die.toNat = true →
      exec (.dieDone die) s = .next { s with cyc := { s.cyc with dieDone := mset s.cyc.dieDone false die.toNat true } })
    ∧ (∀ errs, deviceDone s = true → stepClock s = true → (commitActions s errs).cyc.waiting = [] →
      exec (.commitPhase errs) s = .next (finishCommit (commitActions s errs)))
    ∧ (∀ errs, deviceDone s = true → stepClock s = true → (commitActions s errs).cyc.waiting ≠ [] →
      ∃ t, exec (.commitPhase errs) s = .next t ∧ flag t IN_COMMIT = true ∧ flag t IN_CYCLE = false
        ∧ t.cyc.waiting = (commitActions s errs).cyc.waiting)
    ∧ (∀ (tile : BitVec 7) (port : BitVec 4), stepClock s = true → s.cyc.waiting.length ≠ 1 →
      s.cyc.waiting.contains (tile.toNat * 16 + port.toNat) = true → roomIn s (getF s (P_QBASE (tile.toNat * 16 + port.toNat))) = true →
      ∃ t, exec (.holdPortPush tile port) s = .next t ∧ t.cyc.waiting = s.cyc.waiting.erase (tile.toNat * 16 + port.toNat)
        ∧ t.cyc.stalled = false ∧ t.eng.cur = s.eng.cur)
    ∧ (∀ (tile : BitVec 7) (port : BitVec 4), stepClock s = true → s.cyc.waiting = [tile.toNat * 16 + port.toNat] →
      roomIn s (getF s (P_QBASE (tile.toNat * 16 + port.toNat))) = true →
      ∃ u, exec (.holdPortPush tile port) s = .next (finishCommit u) ∧ u.cyc.waiting = [] ∧ u.eng.cur = s.eng.cur)
    ∧ (∀ f, s.cyc.clockReq = some f → s.cyc.relocking = true → targetMhz s = f → f < 2 ^ STEP_MHZ_NOW.width →
      ∃ t, exec .pllRelock s = .next t ∧ getF t STEP_MHZ_NOW = f ∧ t.cyc.relocking = false ∧ t.cyc.clockReq = none ∧ t.eng = s.eng)
    ∧ (s.cyc.waiting ≠ [] → s.cyc.stalled = false → ∃ t, exec .commitStall s = .next t ∧ flag t (evPend 3331) = true
        ∧ t.cyc = { s.cyc with stalled := true } ∧ t.eng = s.eng ∧ Safety.SameFields [evPend] s t)
    ∧ (∀ die : BitVec 2, flag s IN_CYCLE = true → mget s.cyc.dieDone false die.toNat = false → dieReady s die.toNat = false →
      getF s NOPROGRESS_LIMIT ≠ 0 → dieBlocked s die.toNat = true → getF s SEQ_STATE = 2 → getF s FAULT_CODE = 0 → flag s IN_COMMIT = false →
      ∃ t, exec (.deadlock die) s = .next t ∧ getF t FAULT_CODE = 0x0301 ∧ getF t SEQ_STATE = 3 ∧ flag t IN_CYCLE = false
        ∧ getF t FAULT_CYCLE = getF s CYCLE_NUM % 2 ^ 48 ∧ t.eng.cur = s.eng.cur)
    ∧ (∀ (pc : BitVec 11) (half : Bool) (block : BitVec 6),
      let p := pc.toNat
      let b := blockAt s p half block.toNat
      let h := halfOf s p half
      let taken := if blkPol b then !readSlot s p (blkSlot b) else readSlot s p (blkSlot b)
      flag s IN_CYCLE = true → s.cyc.faulted = false → halfRuns s p half = true → block.toNat < progBlocks (progOf s p half) →
      speculative b = true → h.decided.lookup block.toNat = none → nextStep h ≤ blkFirst b → standsBefore s p half (blkFirst b) = true →
      inTurn s p half (blkFirst b) = true →
      ∃ t, exec (.speculativeDecision pc half block) s = .next t ∧ (halfOf t p half).decided = (block.toNat, taken) :: h.decided
        ∧ mget t.eng.predict true (blockKey p half block.toNat) = taken ∧ t.eng.slot = s.eng.slot ∧ t.eng.cur = s.eng.cur)

/-- Action 2 of the commit phase: the next state buffers become the committed state (R60, R131), when nothing else writes state in it. -/
def Obligations.CommitCommitsState : Prop :=
  ∀ (s : State) (errs : List ReadError), s.cyc.held = [] → s.ctl.groups = [] →
    (commitActions s errs).eng.cur = s.eng.nxt ∧ flag (commitActions s errs) IN_COMMIT = true
      ∧ flag (commitActions s errs) IN_CYCLE = false

/-- Action 8 of the commit phase (R131): with no global operation, agreement or stop under way the cycle number goes up by one, and
stays at its limit (R12). -/
def Obligations.CycleNumberAdvances : Prop :=
  ∀ s : State, s.sys.ops = [] → s.sys.agreements = [] → s.sys.stop = none → s.sys.notice = none → s.cyc.faulted = false →
    getF s CYCLE_NUM < 2 ^ 48 → flag s IN_CYCLE = false →
    getF (finishCommit s) CYCLE_NUM = (if getF s CYCLE_NUM = 2 ^ 48 - 1 then 2 ^ 48 - 1 else getF s CYCLE_NUM + 1)
      ∧ flag (finishCommit s) IN_COMMIT = false ∧ flag (finishCommit s) IN_CYCLE = false

/-- SEQ_CTRL.RUN and SEQ_CTRL.STOP (R142, R146, R252). -/
def Obligations.RunAndStop : Prop :=
  ∀ s : State, hostUp s = true →
    (getF s SEQ_STATE = 1 → getF s CYCLE_NUM < 2 ^ 48 - 1 → haltBlocks s = false → trunkMissing s = false →
      ∃ t, exec .seqCtrlRun s = .next t ∧ getF t SEQ_STATE = 2 ∧ t.cyc.stopReq = false ∧ t.eng = s.eng
        ∧ getF t CYCLE_NUM = getF s CYCLE_NUM)
    ∧ (getF s SEQ_STATE = 1 → getF s CYCLE_NUM < 2 ^ 48 - 1 → trunkMissing s = true →
      ∃ t, exec .seqCtrlRun s = .next t ∧ flag t RUN_REFUSED = true ∧ getF t SEQ_STATE = 1 ∧ t.eng = s.eng)
    ∧ (getF s SEQ_STATE ≠ 1 → exec .seqCtrlRun s = .next s)
    ∧ (getF s SEQ_STATE = 2 → exec .seqCtrlStop s = .next { s with cyc := { s.cyc with stopReq := true } })
    ∧ (getF s SEQ_STATE ≠ 2 → exec .seqCtrlStop s = .next s)

/-- Requests and results of model memory ports (R158, R159, R172, R175). -/
def Obligations.MemoryPorts : Prop :=
  ∀ (s : State) (tile : BitVec 7) (port : BitVec 5) (a : MmpAccess) (rest : List MmpAccess),
    let t := tile.toNat
    let p := port.toNat
    let m := mmpAt s t p
    flag s IN_CYCLE = true →
    (onDie s t p = true ∨ tagsUsed s (t / 32) < 8192) →
    (m.requests = a :: rest → inRange s t p a.addr.toNat = true → a.write = false →
      ∃ x, exec (.mmpRequestTake tile port) s = .next x
        ∧ mmpAt x t p = { m with requests := rest, flying := m.flying ++ [{ a with far := !onDie s t p }] }
        ∧ x.eng.mem = s.eng.mem ∧ x.hbm = s.hbm ∧ x.regs = s.regs)
    ∧ (m.requests = a :: rest → inRange s t p a.addr.toNat = true → a.write = true →
      ∃ x, exec (.mmpRequestTake tile port) s = .next x ∧ mmpAt x t p = { m with requests := rest }
        ∧ x.eng.mem = s.eng.mem ∧ x.hbm = s.hbm ∧ x.regs = s.regs)
    ∧ (m.requests = a :: rest → inRange s t p a.addr.toNat = false → a.write = false → flag s (MMP_OOR_POLICY t p) = false →
      ∃ x, exec (.mmpRequestTake tile port) s = .next x
        ∧ mmpAt x t p = { m with requests := rest, results := m.results ++ [(a.seq, 0)] }
        ∧ getF x (MMP_OOR t p) = min (getF s (MMP_OOR t p) + 1) (2 ^ (MMP_OOR t p).width - 1) ∧ x.eng.mem = s.eng.mem ∧ x.hbm = s.hbm)
    ∧ (m.flying = a :: rest → onDie s t p = true → a.seq < 64 → a.dead = false → (rowsOf s t p a.addr.toNat).all (fun r => mget s.eng.memErr 0 r == 0) = true →
      ∃ x, exec (.mmpResult tile port (BitVec.ofNat 6 a.seq) .none) s = .next x
        ∧ (mmpAt x t p).results = m.results ++ [(a.seq, BitVec.ofNat 256 (readModel s t p a.addr.toNat))]
        ∧ (mmpAt x t p).flying = rest ∧ x.eng.mem = s.eng.mem ∧ x.hbm = s.hbm)
    ∧ (m.flying = a :: rest → onDie s t p = true → a.seq < 64 → a.dead = false → (rowsOf s t p a.addr.toNat).any (fun r => mget s.eng.memErr 0 r == 2) = true →
      getF s FAULT_CODE = 0 → flag s IN_COMMIT = false →
      ∃ x, exec (.mmpResult tile port (BitVec.ofNat 6 a.seq) .none) s = .next x ∧ getF x FAULT_CODE = 0x0102
        ∧ (mmpAt x t p).results = m.results ∧ x.eng.mem = s.eng.mem ∧ x.hbm = s.hbm)

/-- Arrival of values (R95, R103, R114, R117). -/
def Obligations.ExchangeRecords : Prop :=
  ∀ (s : State) (pc : BitVec 11) (n : BitVec 9) (r : XRec),
    let slot := 0x600 + n.toNat
    let tile := pc.toNat / 16
    oldest s (fun x => !x.credit && pcOfRec x == pc.toNat && x.rslot == n) = some r →
    (flag s (TILE_GATED tile) = false → flag s (TILE_IN_RESET tile) = false → unboundHalf s pc.toNat (halfOfOffset s pc.toNat n.toNat) = false →
      substituted s pc.toNat slot = false → (recvQ s pc.toNat slot).length < 5 →
      ∃ t, exec (.valueRecord pc n) s = .next t ∧ recvQ t pc.toNat slot = recvQ s pc.toNat slot ++ [r.value]
        ∧ t.ex = { s.ex with transit := s.ex.transit.erase r } ∧ t.regs = s.regs
        ∧ (∀ k, k ≠ recvKey pc.toNat slot → mget t.eng.recv [] k = mget s.eng.recv [] k) ∧ t.eng.slot = s.eng.slot)
    ∧ (flag s (TILE_GATED tile) = false → flag s (TILE_IN_RESET tile) = false → unboundHalf s pc.toNat (halfOfOffset s pc.toNat n.toNat) = false →
      substituted s pc.toNat slot = false → (recvQ s pc.toNat slot).length = 5 → getF s FAULT_CODE = 0 → flag s IN_COMMIT = false →
      ∃ t, exec (.valueRecord pc n) s = .next t ∧ getF t FAULT_CODE = 0x0202 ∧ t.eng.recv = s.eng.recv)
    ∧ (flag s (TILE_GATED tile) = true → ∃ t, exec (.valueRecord pc n) s = .next t
        ∧ getF t (EXCH_DISCARD tile) = min (getF s (EXCH_DISCARD tile) + 1) (2 ^ 32 - 1) ∧ t.eng = s.eng)

/-- CREDIT_RECORD (R97), FRAME_CLOSE and EXCHANGE_FRAME (R109, R110, R111), retrains and BRIDGE_DOWN (R111, R116), EXCH (R246) and
EXCH_FLIT_CLOSE (R245). -/
def Obligations.ExchangeTransport : Prop :=
  ∀ s : State,
    (∀ (tile : BitVec 7) (e : BitVec 12) (r : XRec),
      oldest s (fun x => x.credit && x.die.toNat * 32 + x.tile.toNat == tile.toNat && x.entry == e) = some r →
      ∃ t, exec (.creditRecord tile e) s = .next t ∧ creditOf t tile.toNat e.toNat = creditOf s tile.toNat e.toNat + 1
        ∧ (∀ k, k ≠ tile.toNat * 4096 + e.toNat → mget t.eng.credit 5 k = mget s.eng.credit 5 k)
        ∧ t.ex = { s.ex with transit := s.ex.transit.erase r })
    ∧ (∀ (m : BitVec 7) (die : BitVec 2) (dev : BitVec 9) (r : XRec) (rs : List XRec),
      mget s.ex.opened [] (openKey m.toNat die.toNat dev.toNat) = r :: rs →
      ∃ t, exec (.frameClose m die dev) s = .next t ∧ mget t.ex.opened [] (openKey m.toNat die.toNat dev.toNat) = []
        ∧ mget t.ex.frames [] m.toNat = mget s.ex.frames [] m.toNat ++ [⟨dev, die, mget s.ex.seqTx 0 m.toNat, r :: rs⟩]
        ∧ mget t.ex.seqTx 0 m.toNat = mget s.ex.seqTx 0 m.toNat + 1 ∧ { t with ex := s.ex } = s)
    ∧ (∀ (m : BitVec 7) (f : Frame) (rest : List Frame), 32 ≤ m.toNat → mget s.ex.retrain false m.toNat = false →
      mget s.ex.frames [] m.toNat = f :: rest → f.seq = mget s.ex.seqRx 0 m.toNat →
      ∃ t, exec (.exchangeFrame m 0) s = .next t ∧ t.ex.transit = s.ex.transit ++ f.recs ∧ mget t.ex.frames [] m.toNat = rest
        ∧ mget t.ex.seqRx 0 m.toNat = f.seq + 1 ∧ { t with ex := s.ex } = s)
    ∧ (∀ (m lost : BitVec 8) (f : Frame) (rest : List Frame), m.toNat < 96 → mget s.ex.retrain false m.toNat = false →
      (mget s.ex.frames [] m.toNat).drop lost.toNat = f :: rest → f.seq ≠ mget s.ex.seqRx 0 m.toNat → getF s FAULT_CODE = 0 →
      flag s IN_COMMIT = false → ∃ t, exec (.exchangeFrame (BitVec.ofNat 7 m.toNat) lost) s = .next t ∧ getF t FAULT_CODE = 0x0203
        ∧ flag t BF_VALID = true ∧ t.ex.transit = s.ex.transit)
    ∧ (∀ (m : BitVec 7) (lost : BitVec 8), mget s.ex.retrain false m.toNat = true → exec (.exchangeFrame m lost) s = .next s)
    ∧ (∀ m : BitVec 7, m.toNat < 96 → ∃ t, exec (.bridgeRetrain m) s = .next t ∧ mget t.ex.retrain false m.toNat = true
        ∧ (∀ k, k ≠ m.toNat → mget t.ex.retrain false k = mget s.ex.retrain false k) ∧ { t with ex := s.ex } = s)
    ∧ (∀ m : BitVec 7, ∃ t, exec (.bridgeRetrainComplete m) s = .next t ∧ mget t.ex.retrain false m.toNat = false
        ∧ (∀ k, k ≠ m.toNat → mget t.ex.retrain false k = mget s.ex.retrain false k) ∧ { t with ex := s.ex } = s)
    ∧ (∀ m : BitVec 7, mget s.ex.retrain false m.toNat = true → getF s FAULT_CODE = 0 → flag s IN_COMMIT = false →
      ∃ t, exec (.bridgeDown m) s = .next t ∧ getF t FAULT_CODE = 0x0203 ∧ flag t BF_VALID = true ∧ t.eng.cur = s.eng.cur)
    ∧ (∀ (rx : Rx) (u : State) (k : Nat), Safety.Delivered s rx u k → rx.type = 1 → getF s (TS_STATE k) = 2 → s.sys.snapOpen = none →
      pf rx.payload 15 4 + 1 ≤ getF u DIAMETER → pf rx.payload 31 9 = getF u DEV_ID →
      exec (.exch rx) s = .next (hubRecords u (exchRecords rx.payload)))
    ∧ (∀ (dev : BitVec 9) (r : XRec) (rs : List XRec) (k : Nat), mget s.ex.flits [] dev.toNat = r :: rs →
      routeOfDev s dev.toNat = some k → ∃ t, exec (.exchFlitClose dev) s = .next t ∧ mget t.ex.flits [] dev.toNat = []
        ∧ t = sendFlit { s with ex := { s.ex with flits := mset s.ex.flits [] dev.toNat [] } } k ftExch (exchPayload s dev.toNat (r :: rs)))

/-- The 23 bits of a record in an EXCH flit say all of it: reading them back gives the record (R244). -/
def Obligations.ExchangeRecordCodes : Prop :=
  ∀ r : XRec, (r.credit = false → r.entry = 0) → (r.credit = true → r.cluster = 0 ∧ r.rslot = 0 ∧ r.value = false) →
    exchRec r.dev.toNat r.cyc.toNat (exchBits r) = r ∧ exchBits r < 2 ^ 23

/-- The scrambler and its inverse (R284), PAM4 (R285), and the CRC of a flit (R287). -/
def Obligations.LineCodes : Prop :=
  (∀ (past bits : List Bool), descramble past (scramble past bits) = bits)
    ∧ (∀ hi lo : Bool, unPam4 (pam4 hi lo) = (hi, lo))
    ∧ (∀ (type seq : Byte) (payload : BitVec 224), flitGood (flitWord type seq payload) = true)

/-- The training of a lane: SIGNAL_DETECT, EQ_COMPLETE, ALIGN_SEARCH_STEP, TRAIN, TRAINING_TIMEOUT, BACKOFF_EXPIRY and RETRY_NOW
(R281, R295 to R299, R531). -/
def Obligations.LaneTraining : Prop :=
  ∀ (s : State) (lane : BitVec 7),
    let n := lane.toNat
    (getF s (LANE_STATE n) = 1 → ∃ t, exec (.signalDetect lane) s = .next t ∧ getF t (LANE_STATE n) = 2 ∧ getF t (SIG_DET n) = 1
        ∧ { t with regs := s.regs } = s ∧ Safety.SameFields [fun _ => LANE_STATE n, fun _ => SIG_DET n] s t)
    ∧ (getF s (LANE_STATE n) = 2 → mget s.pw.noClock false (1 + n / 16) = false →
      ∃ t, exec (.eqComplete lane) s = .next t ∧ getF t (LANE_STATE n) = 3 ∧ getF t (SYM_LOCK n) = 1 ∧ getF t (ALIGN_GOOD n) = 0
        ∧ { t with regs := s.regs } = s
        ∧ Safety.SameFields [fun _ => LANE_STATE n, fun _ => SYM_LOCK n, fun _ => ALIGN_GOOD n] s t)
    ∧ (mget s.pw.noClock false (1 + n / 16) = true → exec (.eqComplete lane) s = .next s)
    ∧ (getF s (LANE_STATE n) = 3 → flag s (ALIGN_MANUAL n) = false →
      ∃ t, exec (.alignSearchStep lane) s = .next t ∧ (laneAt t n).offset = (laneAt s n).offset + 1 ∧ getF t (ALIGN_GOOD n) = 0
        ∧ { t with regs := s.regs, lnk := s.lnk } = s ∧ Safety.SameFields [fun _ => ALIGN_GOOD n] s t)
    ∧ (∀ rx : Rx, rx.lane = lane → getF s (LANE_STATE n) = 3 → getF s (ALIGN_GOOD n) < 15 →
      ∃ t, exec (.train rx) s = .next t ∧ getF t (ALIGN_GOOD n) = getF s (ALIGN_GOOD n) + 1 ∧ { t with regs := s.regs, lnk := s.lnk } = s
        ∧ Safety.SameFields [fun _ => ALIGN_GOOD n] s t)
    ∧ (∀ rx : Rx, rx.lane = lane → getF s (LANE_STATE n) = 3 → getF s (ALIGN_GOOD n) = 15 →
      ∃ t, exec (.train rx) s = .next t ∧ getF t (LANE_STATE n) = 4 ∧ getF t (FLIT_LOCK n) = 1
        ∧ Safety.SameFields [fun _ => ALIGN_GOOD n, fun _ => LANE_STATE n, fun _ => FLIT_LOCK n] s t)
    ∧ (∀ (rx : Rx) (k : Nat), rx.lane = lane → getF s (LANE_STATE n) = 4 → (laneAt s n).cfgGood = 15 →
      (laneAt s n).cfgLast = BitVec.ofNat 18 (pf rx.payload 0 18) → trunkOfLane s n = some k → flag s (REJOIN_AUTO k) = false →
      miswired s n rx.payload = false →
      ∃ t, exec (.train rx) s = .next t ∧ getF t (LANE_STATE n) = 5 ∧ getF t (P_LANE n) = pf rx.payload 0 7
        ∧ getF t (P_TRUNK n) = pf rx.payload 7 7 ∧ getF t (P_LOGICAL n) = pf rx.payload 14 4
        ∧ Safety.SameFields [fun _ => LANE_STATE n, fun _ => P_LANE n, fun _ => P_TRUNK n, fun _ => P_LOGICAL n] s t)
    ∧ (∀ (rx : Rx) (k : Nat), rx.lane = lane → getF s (LANE_STATE n) = 5 → bitOf rx.payload.toNat 20 = true → trunkOfLane s n = some k →
      ∃ t, exec (.train rx) s = .next t ∧ (laneAt t n).gotStart = true
        ∧ (trunkAt t k).partnerMask = some (BitVec.ofNat 16 (pf rx.payload 22 16)) ∧ (laneAt t n).partnerFec = bitOf rx.payload.toNat 18
        ∧ { t with regs := s.regs, lnk := s.lnk } = s
        ∧ Safety.SameFields [fun _ => P_LANE n, fun _ => P_TRUNK n, fun _ => P_LOGICAL n] s t)
    ∧ ((getF s (LANE_STATE n) = 1 ∨ getF s (LANE_STATE n) = 2 ∨ getF s (LANE_STATE n) = 4
        ∨ (getF s (LANE_STATE n) = 3 ∧ flag s (ALIGN_MANUAL n) = false)) →
      ∃ t, exec (.trainingTimeout lane) s = .next t ∧ getF t (LANE_STATE n) = 8
        ∧ getF t (ATTEMPTS n) = min (getF s (ATTEMPTS n) + 1) 31
        ∧ (getF s (ATTEMPTS n) = 15 → flag t (NO_PARTNER n) = true ∧ flag t (evPend (linkEv n 3)) = true)
        ∧ (getF s (ATTEMPTS n) ≠ 15 → { t with regs := s.regs } = s
            ∧ Safety.SameFields [fun _ => LANE_STATE n, fun _ => ATTEMPTS n] s t))
    ∧ (getF s (LANE_STATE n) = 8 → ∃ t, exec (.backoffExpiry lane) s = .next t ∧ getF t (LANE_STATE n) = 1 ∧ getF t (SIG_DET n) = 0
        ∧ getF t (SYM_LOCK n) = 0 ∧ getF t (FLIT_LOCK n) = 0 ∧ getF t (ATTEMPTS n) = getF s (ATTEMPTS n))
    ∧ (hostUp s = true → (getF s (LANE_STATE n) = 0 ∨ getF s (LANE_STATE n) = 9) → exec (.retryNow lane) s = .next s)
    ∧ (hostUp s = true → 1 ≤ getF s (LANE_STATE n) → getF s (LANE_STATE n) ≠ 6 → getF s (LANE_STATE n) ≠ 9 →
      ∃ t, exec (.retryNow lane) s = .next t ∧ getF t (LANE_STATE n) = 1 ∧ getF t (ATTEMPTS n) = getF s (ATTEMPTS n)
        ∧ { t with regs := s.regs, lnk := s.lnk } = s)

/-- TRUNK_START and TRUNK_START_TIMEOUT (R299), LANE_FAIL (R301), RECOVER_REQ and RESUME (R302). -/
def Obligations.TrunkFormation : Prop :=
  ∀ s : State,
    (∀ k : BitVec 7, k.toNat < 96 → (getF s (LSTATE k.toNat) = 1 ∨ getF s (LSTATE k.toNat) = 4) →
      (trunkAt s k.toNat).starting = false → getF s (MIN_LANES_M1 k.toNat) + 1 ≤ (trunkLanes s k.toNat).length →
      readyLanes s k.toNat = trunkLanes s k.toNat → (trunkLanes s k.toNat).any (fun n => !(laneAt s n).gotStart) = true →
      ∃ t, exec (.trunkStart k) s = .next t ∧ (trunkAt t k.toNat).starting = true
        ∧ (trunkAt t k.toNat).ownSet = trunkLanes s k.toNat ∧ { t with lnk := s.lnk } = s)
    ∧ (∀ (k : BitVec 7) (m : BitVec 16) (n : Nat), k.toNat < 96 → getF s (LSTATE k.toNat) = 1 →
      (trunkAt s k.toNat).starting = true → startsIn s k.toNat = true → (trunkAt s k.toNat).partnerMask = some m →
      n ∈ trunkLanes s k.toNat → getF s (LANE_STATE n) = 5 → (trunkAt s k.toNat).ownSet.contains n = true →
      m.getLsbD (getF s (P_LOGICAL n)) = true →
      ∃ t, exec (.trunkStart k) s = .next t ∧ getF t (LSTATE k.toNat) = 2 ∧ getF t (TS_STATE k.toNat) = 1
        ∧ getF t (LANE_STATE n) = 6 ∧ (trunkAt t k.toNat).starting = false)
    ∧ (∀ k : BitVec 7, k.toNat < 96 → (getF s (LSTATE k.toNat) = 1 ∨ getF s (LSTATE k.toNat) = 4) →
      (trunkAt s k.toNat).starting = false → getF s (MIN_LANES_M1 k.toNat) + 1 ≤ (readyLanes s k.toNat).length →
      ∃ t, exec (.trunkStartTimeout k) s = .next t ∧ (trunkAt t k.toNat).starting = true
        ∧ (trunkAt t k.toNat).ownSet = readyLanes s k.toNat ∧ { t with lnk := s.lnk } = s)
    ∧ (∀ (lane : BitVec 7) (b : Bool) (k : Nat), trunkOfLane s lane.toNat = some k → carriers s k = [lane.toNat] →
      ∃ t, exec (.laneFail lane b) s = .next t ∧ getF t (LANE_STATE lane.toNat) = 1 ∧ getF t (ATTEMPTS lane.toNat) = 0
        ∧ flag t (evPend (linkEv lane.toNat 1)) = true ∧ getF t (LSTATE k) = getF s (LSTATE k))
    ∧ (∀ (lane : BitVec 7) (b : Bool) (k : Nat), trunkOfLane s lane.toNat = some k → (carriers s k).contains lane.toNat = true →
      (carriers s k).erase lane.toNat ≠ [] →
      ∃ t, exec (.laneFail lane b) s = .next t ∧ getF t (LSTATE k) = 3 ∧ getF t (LANE_STATE lane.toNat) = 1
        ∧ (trunkAt t k).starting = true ∧ (trunkAt t k).ownSet = (carriers s k).erase lane.toNat
        ∧ (trunkAt t k).recoveries = (trunkAt s k).recoveries + 1)
    ∧ (∀ (rx : Rx) (k : Nat), trunkOfLane s rx.lane.toNat = some k → (carriers s k).contains rx.lane.toNat = true →
      getF s (LSTATE k) = 2 → (trunkLanes s k).any (fun n => (BitVec.ofNat 16 (pf rx.payload 8 16)).getLsbD (getF s (P_LOGICAL n))
        && ((carriers s k).contains n || getF s (LANE_STATE n) == 5)) = true →
      ∃ t, exec (.recoverReq rx) s = .next t ∧ getF t (LSTATE k) = 3 ∧ (trunkAt t k).starting = true
        ∧ (trunkAt t k).recoveries = (trunkAt s k).recoveries + 1)
    ∧ (∀ (rx : Rx) (d : BitVec 32) (k : Nat), trunkOfLane s rx.lane.toNat = some k → getF s (LSTATE k) = 3 →
      (trunkAt s k).starting = false → getF s (LANE_STATE rx.lane.toNat) = 6 →
      (activeLanes s k).all (fun n => n == rx.lane.toNat || (laneAt s n).gotResume) = true →
      ∃ t, exec (.resume rx d) s = .next t ∧ getF t (LSTATE k) = 2 ∧ getF t (LAST_RECOVER k) = d.toNat
        ∧ getF t (RECOVER_COUNT k) = min (getF s (RECOVER_COUNT k) + 1) (2 ^ 32 - 1)
        ∧ flag t (evPend (linkEv k 2)) = true)

/-- FLIT_CRC_FAIL (R287, R293), FILL (R292), REPLAY_TIMEOUT (R293), FEC_CODEWORD (R291), and the PRBS commands (R305, R306). -/
def Obligations.LaneTraffic : Prop :=
  ∀ (s : State) (lane : BitVec 7),
    let n := lane.toNat
    (∀ b : LineBlock, b.lane = lane → getF s (LANE_STATE n) = 6 →
      let x := (laneAt s n).rx.block (b.symbols.map BitVec.toNat)
      flitGood (wordOfBits x.1) = false →
      ∃ t, exec (.flitCrcFail b) s = .next t ∧ getF t (CRC_ERR n) = min (getF s (CRC_ERR n) + 1) (2 ^ (CRC_ERR n).width - 1)
        ∧ getF t (STUFF_ERR n) = min (getF s (STUFF_ERR n) + x.2.1) (2 ^ (STUFF_ERR n).width - 1)
        ∧ laneAt t n = { askReplay (laneAt s n) with rx := x.2.2 } ∧ Safety.SameFields [fun _ => CRC_ERR n, fun _ => STUFF_ERR n] s t
        ∧ { t with regs := s.regs, lnk := s.lnk } = s)
    ∧ (∀ (rx : Rx) (k : Nat), rx.lane = lane → trafficTrunk s n = some k → (trunkAt s k).queue = [] →
      bitOf rx.payload.toNat 16 = false → bitOf rx.payload.toNat 17 = true →
      0 < ackedCount (trunkAt s k) n (BitVec.ofNat 8 (pf rx.payload 0 8)) →
      ∃ t, exec (.fill rx) s = .next t
        ∧ (trunkAt t k).sent = dropAcked n (ackedCount (trunkAt s k) n (BitVec.ofNat 8 (pf rx.payload 0 8))) (trunkAt s k).sent
        ∧ (laneAt t n).resends = 0 ∧ (laneAt t n).partnerRx = BitVec.ofNat 8 (pf rx.payload 8 8) ∧ { t with lnk := s.lnk } = s)
    ∧ (∀ k : Nat, trafficTrunk s n = some k → 0 < unacked (trunkAt s k) n → (laneAt s n).resends < 7 →
      ∃ t, exec (.replayTimeout lane) s = .next t ∧ (laneAt t n).resends = (laneAt s n).resends + 1
        ∧ getF t (REPLAY_COUNT n) = min (getF s (REPLAY_COUNT n) + 1) (2 ^ (REPLAY_COUNT n).width - 1)
        ∧ getF t (LANE_STATE n) = 6)
    ∧ (∀ (c : BitVec 4) (e : Byte), getF s (LANE_STATE n) = 6 → flag s (LANE_FEC_ON n) = true →
      ∃ t, exec (.fecCodeword lane (laneAt s n).cwNext (some c) e) s = .next t
        ∧ laneAt t n = { laneAt s n with cwNext := (laneAt s n).cwNext + 1, uncorr := 0 }
        ∧ getF t (FEC_CORR n) = min (getF s (FEC_CORR n) + c.toNat) (2 ^ (FEC_CORR n).width - 1)
        ∧ getF t (STUFF_ERR n) = min (getF s (STUFF_ERR n) + e.toNat) (2 ^ (STUFF_ERR n).width - 1)
        ∧ Safety.SameFields [fun _ => FEC_CORR n, fun _ => STUFF_ERR n] s t)
    ∧ (getF s (LANE_STATE n) = 6 → flag s (LANE_FEC_ON n) = true → (laneAt s n).uncorr < 3 →
      ∃ t, exec (.fecCodeword lane (laneAt s n).cwNext none 0) s = .next t ∧ (laneAt t n).nak = true
        ∧ (laneAt t n).uncorr = (laneAt s n).uncorr + 1
        ∧ getF t (FEC_UNCORR n) = min (getF s (FEC_UNCORR n) + 1) (2 ^ (FEC_UNCORR n).width - 1)
        ∧ Safety.SameFields [fun _ => FEC_UNCORR n] s t)
    ∧ (hostUp s = true → n < 96 → ∃ t, exec (.prbsClr lane) s = .next t ∧ getF t (PRBS_ERR n) = 0 ∧ getF t (PRBS_BITS n) = 0
        ∧ { t with regs := s.regs } = s ∧ Safety.SameFields [fun _ => PRBS_ERR n, fun _ => PRBS_BITS n] s t)
    ∧ (∀ taps : Nat × Nat, getF s (LANE_STATE n) = 9 → prbsTaps (getF s (PRBS_CHK n)) = some taps → (laneAt s n).prbsLock = false →
      taps.1 ≤ (laneAt s n).prbsSeen.length → (laneAt s n).prbsGood = 63 →
      ∃ t, exec (.prbsCheckerLock ⟨lane, [prbsNext taps (laneAt s n).prbsSeen]⟩) s = .next t ∧ (laneAt t n).prbsLock = true ∧ t.regs = s.regs)
    ∧ (∀ bits : List Bool, getF s (LANE_STATE n) = 9 → (prbsTaps (getF s (PRBS_CHK n))).isSome = true → (laneAt s n).prbsLock = true →
      ∃ t, exec (.prbsCheckerLock ⟨lane, bits⟩) s = .next t ∧ (laneAt t n).prbsLock = true
        ∧ getF t (PRBS_BITS n) = min (getF s (PRBS_BITS n) + bits.length) (2 ^ 48 - 1)
        ∧ Safety.SameFields [fun _ => PRBS_ERR n, fun _ => PRBS_BITS n] s t)
    ∧ (∀ bits errs : BitVec 48, (laneAt s n).prbsLock = true →
      ∃ t, exec (.prbsLockLoss lane bits errs) s = .next t ∧ (laneAt t n).prbsLock = false
        ∧ getF t (PRBS_BITS n) = min (getF s (PRBS_BITS n) + bits.toNat) (2 ^ 48 - 1)
        ∧ getF t (PRBS_ERR n) = min (getF s (PRBS_ERR n) + errs.toNat) (2 ^ 48 - 1)
        ∧ Safety.SameFields [fun _ => PRBS_ERR n, fun _ => PRBS_BITS n] s t)

/-- HELLO (R248, R250), CYCLE_REPORT (R253), SYNC (R255), STOP_NOTICE (R263), FAULT_NOTICE (R264), FREEZE (R266), LINK_DOWN (R266, R304). -/
def Obligations.SystemMessages : Prop :=
  ∀ (s u : State) (rx : Rx) (k : Nat),
    let p := rx.payload
    let first := fun csub => csubOf p = csub ∧ getF s (TS_STATE k) = 2 ∧ s.sys.seen.contains (csub, pf p 8 9, pf p 17 8) = false
    Safety.Delivered s rx u k → rx.type = 4 →
    (csubOf p = 0x40 → ∃ t, exec (.hello rx) s = .next t ∧ getF t (TS_PARTNER_DEV k) = pf p 8 9 ∧ getF t (TS_PARTNER_EPOCH k) = pf p 36 32
      ∧ getF t (TS_LINK_LEVEL k) = min (pf p 17 8) (getF s FW_LEVEL) % 2 ^ (TS_LINK_LEVEL k).width ∧ Safety.SlotsKept s t
      ∧ (pf p 8 9 = getF s DEV_ID → getF t (TS_STATE k) = 1 ∧ getF t (TS_REASON k) = 3)
      ∧ (pf p 8 9 ≠ getF s DEV_ID → (pf p 36 32 ≠ getF s SYS_EPOCH ∨ getF s SYS_EPOCH = 0) →
          getF t (TS_STATE k) = 1 ∧ getF t (TS_REASON k) = 1)
      ∧ (pf p 8 9 ≠ getF s DEV_ID → pf p 36 32 = getF s SYS_EPOCH → getF s SYS_EPOCH ≠ 0 → pf p 68 128 = s.sys.deviceImage.toNat →
          s.sys.linkLevel.any (fun e => decide (pf p 17 8 < e.2.getD 0)) = false →
          skewed s (getF s (TS_PARTNER_CYCLE k)) (getF s CYCLE_NUM) = false →
          getF t (TS_STATE k) = 2 ∧ getF t (TS_REASON k) = 0))
    ∧ (csubOf p = 0x10 → bitOf p.toNat 57 = true → ∃ t, exec (.cycleReport rx) s = .next t ∧ getF t (TS_PARTNER_CYCLE k) = pf p 8 48
        ∧ Safety.SameFields [fun _ => TS_PARTNER_CYCLE k] s t ∧ { t with regs := s.regs, lnk := s.lnk } = s)
    ∧ (csubOf p = 0x10 → bitOf p.toNat 57 = false → getF s (TS_STATE k) = 2 → pf p 8 48 = getF s (TS_PARTNER_CYCLE k) + 1 →
      ∃ t, exec (.cycleReport rx) s = .next t ∧ getF t (TS_PARTNER_CYCLE k) = pf p 8 48
        ∧ Safety.SameFields [fun _ => TS_PARTNER_CYCLE k] s t ∧ { t with regs := s.regs, lnk := s.lnk } = s)
    ∧ (csubOf p = 0x10 → bitOf p.toNat 57 = false → getF s (TS_STATE k) = 2 → pf p 8 48 ≠ getF s (TS_PARTNER_CYCLE k) + 1 → pf p 8 48 ≠ 0 →
      ∃ t, exec (.cycleReport rx) s = .next t ∧ getF t (TS_STATE k) = 1 ∧ getF t (TS_REASON k) = 4
        ∧ (getF s SEQ_STATE = 2 → getF t SEQ_STATE = 4) ∧ getF t CYCLE_NUM = getF s CYCLE_NUM ∧ Safety.SlotsKept s t)
    ∧ (csubOf p = 0x42 → getF s (TS_STATE k) = 2 → s.sys.agreements = [] →
      ∃ t, exec (.sync rx) s = .next t ∧ Safety.SameFields [fun _ => TRC_LOST] s t
        ∧ t.sys = { s.sys with syncs := s.sys.syncs ++ [⟨k, pf p 8 9, pf p 17 8, pf p 25 6, bitOf p.toNat 31, pf p 32 48⟩] })
    ∧ (first 0x43 → s.sys.stop = none → getF s SEQ_STATE = 2 → flag s IN_CYCLE = true →
      ∃ t, exec (.stopNotice rx) s = .next t ∧ t.sys.stop = some ⟨[(pf p 8 9, pf p 17 8, pf p 25 4)], false, none, 0⟩
        ∧ Safety.SameFields [fun _ => TRC_LOST] s t ∧ t.eng = s.eng)
    ∧ (first 0x44 → getF s SEQ_STATE = 2 → flag s IN_CYCLE = false → flag s IN_COMMIT = false →
      ∃ t, exec (.faultNotice rx) s = .next t ∧ getF t SEQ_STATE = 3 ∧ getF t STOP_CAUSE = 8 ∧ getF t SYS_STOP_ORIGIN = pf p 8 9
        ∧ getF t SYS_STOP_CAUSE = 2 ∧ getF t FAULT_CODE = getF s FAULT_CODE ∧ t.eng = s.eng)
    ∧ (first 0x45 → getF s SEQ_STATE = 2 →
      ∃ t, exec (.freeze rx) s = .next t ∧ getF t SEQ_STATE = 4 ∧ getF t STOP_CAUSE = 9 ∧ getF t SYS_STOP_ORIGIN = pf p 8 9
        ∧ getF t SYS_STOP_CAUSE = 3 ∧ getF t FAULT_CODE = getF s FAULT_CODE ∧ getF t CYCLE_NUM = getF s CYCLE_NUM
        ∧ Safety.SlotsKept s t)
    ∧ (∃ t, exec (.linkDown (BitVec.ofNat 7 k)) s = .next t ∧ getF t (LSTATE k) = 4 ∧ getF t (TS_STATE k) = 3
        ∧ (trunkAt t k).queue = [] ∧ (trunkAt t k).sent = []
        ∧ getF t (LINK_DOWN_COUNT k) = min (getF s (LINK_DOWN_COUNT k) + 1) (2 ^ (LINK_DOWN_COUNT k).width - 1)
        ∧ (getF s (TS_STATE k) = 2 → getF s SEQ_STATE = 2 → getF t SEQ_STATE = 4)
        ∧ (getF s (TS_STATE k) = 2 → getF t CYCLE_NUM = getF s CYCLE_NUM ∧ Safety.SlotsKept s t)
        ∧ (getF s SEQ_STATE ≠ 2 → getF t SEQ_STATE = getF s SEQ_STATE))

/-- GOP_ANNOUNCE (R260), GOP_MARK (R262), AGREEMENT_READY (R255 to R257), SNAPSHOT_WRITE_COMPLETE (R274), RESTORE_COMPLETE (R275) and
GOP_SLOT_READ (R278). -/
def Obligations.GlobalOperations : Prop :=
  ∀ s : State,
    (∀ (u : State) (rx : Rx) (k j : Nat), Safety.Delivered s rx u k → rx.type = 4 → csubOf rx.payload = 0x41 → getF s (TS_STATE k) = 2 →
      s.sys.seen.contains (0x41, pf rx.payload 8 9, pf rx.payload 17 8) = false → bitOf rx.payload.toNat 28 = false →
      getF s CYCLE_NUM < pf rx.payload 53 48 → takeSlot s.sys.ops = (some j, s.sys.ops) →
      ∃ t g, exec (.gopAnnounce rx) s = .next t ∧ t.sys.ops = s.sys.ops ++ [g] ∧ g.slot = some j ∧ g.state = 1 ∧ g.vote = false
        ∧ g.kind = pf rx.payload 25 3 ∧ g.origin = pf rx.payload 8 9 ∧ g.seq = pf rx.payload 17 8 ∧ g.cycle = pf rx.payload 53 48
        ∧ g.flags = pf rx.payload 29 8 ∧ g.arg = pf rx.payload 37 16 ∧ g.data = pf rx.payload 131 64
        ∧ Safety.SameFields [fun _ => TRC_LOST, fun _ => CMP_TARGET_SEC 6, fun _ => CMP_TARGET_NS 6] s t ∧ t.eng = s.eng)
    ∧ (∃ t, exec .gopMark s = .next t ∧ t.sys.ops.length = s.sys.ops.length
        ∧ (∀ g ∈ s.sys.ops, markDue s g = true → { g with marked := true } ∈ t.sys.ops)
        ∧ (∀ g ∈ s.sys.ops, markDue s g = false → g ∈ t.sys.ops) ∧ { t with sys := s.sys } = s)
    ∧ (∀ a : Agreement, readyTime s = none → readyCycle s = some a → upTrunks s ≠ [] → s.sys.agreements = [] → s.sys.syncs = [] →
      ∃ t, exec .agreementReady s = .next t ∧ t.sys.agreements = [{ a with round := 1 }]
        ∧ Safety.SameFields [fun _ => TRC_LOST] s t ∧ t.eng = s.eng)
    ∧ (∀ g : Gop, s.sys.ops = [g] → g.kind = 3 → g.state = 1 → g.byTime = false → g.cycle = getF s CYCLE_NUM → votesAbort s g = false →
      s.sys.agreements = [] → upTrunks s = [] → flag s IN_CYCLE = false → flag s IN_COMMIT = false → drained s = true →
      ∃ t, exec .agreementReady s = .next t ∧ getF t CYCLE_NUM = 0 ∧ t.eng.recv = [] ∧ t.eng.credit = []
        ∧ t.sys.ops = [{ g with state := 3, round := 0 }] ∧ getF t FAULT_CODE = 0
        ∧ (bitOf g.flags 0 = false → Safety.SlotsKept s t) ∧ (bitOf g.flags 0 = true → t.eng.cur = [] ∧ t.eng.nxt = [] ∧ t.eng.slot = []))
    ∧ (writingSnap s = true → ∃ t, exec .snapshotWriteComplete s = .next t
        ∧ t.sys.snap = s.sys.snap.map (fun e => (e.1,
            if e.2.writing ∧ ¬ e.2.importing then { e.2 with writing := false, valid := !e.2.invalid } else e.2))
        ∧ t.eng = s.eng ∧ getF t CYCLE_NUM = getF s CYCLE_NUM)
    ∧ (∀ (slot call : Nat) (c : Snapshot), s.sys.restoring = some (slot, call) → mget s.sys.contents none slot = some c →
      areasGood s slot = true → ∃ t, exec (.restoreComplete false) s = .next t ∧ getF t CYCLE_NUM = c.cycle % 2 ^ 48
        ∧ getF t SEQ_STATE = 1 ∧ t.eng.cur = c.cur ∧ t.eng.nxt = c.cur ∧ t.eng.slot = c.slot ∧ t.eng.recv = c.recv
        ∧ t.eng.mem = c.mem ∧ t.eng.credit = c.credit ∧ t.eng.msg = c.msgs ∧ t.cyc.tout = c.tout ∧ t.cyc.sched = c.sched ∧ getF t SYS_EPOCH = 0 ∧ getF t FAULT_CODE = 0 ∧ t.sys.restoring = none)
    ∧ (∀ (slot call : Nat) (c : Snapshot), s.sys.restoring = some (slot, call) → mget s.sys.contents none slot = some c →
      ∃ t, exec (.restoreComplete true) s = .next t ∧ getF t SEQ_STATE = 3 ∧ t.sys.restoring = none)
    ∧ (∀ (slot : BitVec 4) (g : Gop), hostUp s = true → opInSlot s slot.toNat = some g → ∃ t, exec (.gopSlotRead slot) s = .next t
        ∧ t.readData = gopWord g ∧ t.regs = s.regs ∧ { t with readData := s.readData, sys := s.sys } = s
        ∧ t.sys.ops = s.sys.ops.filter (fun h => !(h.slot == some slot.toNat && h.state == 3)))

/-- STOP_AT, SNAPSHOT_AT, RESET_AT, BROADCAST and BARRIER (R257, R260, R277). -/
def Obligations.GlobalOperationCommands : Prop :=
  ∀ (s : State) (r : BitVec 5) (p : Packet) (op kind : Nat) (c : Instr),
    let v := fieldAt p.params
    let a := countFetch s r.toNat
    let q := ringRequest r.toNat op p
    (c, op, kind) ∈ [(Instr.stopAt r p, 0x0420, 1), (Instr.snapshotAt r p, 0x0421, 2), (Instr.resetAt r p, 0x0422, 3),
      (Instr.broadcast r p, 0x0423, 4), (Instr.barrier r p, 0x0424, 5)] →
    Safety.Fetched s r op p 32 .plain → r.toNat ≤ 1 → goParams kind a q 0 = true → trunkMissing s = false →
    (takeSlot s.sys.ops).1.isSome = true → Safety.RoomFor s q →
    ∃ t, exec c s = .next t ∧ t = issueOp (Safety.pended (drawFree a) q).1 (gopOf kind q s.ctl.nextCall) (v 8 8)
      ∧ (callOf t s.ctl.nextCall).isSome = true ∧ ∃ g ∈ t.sys.ops, g.kind = kind ∧ g.state = 1
      ∧ g.slot.isSome = true ∧ g.origin = getF s DEV_ID ∧ g.call = s.ctl.nextCall ∧ g.byTime = (v 0 1 == 1) ∧ g.flags = v 1 1
      ∧ g.arg = v 2 2 ∧ g.cycle = (if v 0 1 = 1 then 0 else v 8 8) ∧ g.sec = (if v 0 1 = 1 then v 8 8 else 0) ∧ g.ns = v 16 4
      ∧ g.data = v 24 8

/-- SET_EPOCH (R268), SNAP_AREA (R271), RESTORE (R275) and SNAP_INFO (R277). -/
def Obligations.SystemCommands : Prop :=
  ∀ (s : State) (r : BitVec 5) (p : Packet),
    let v := fieldAt p.params
    let a := countFetch s r.toNat
    let q := ringRequest r.toNat 0x0511 p
    (Safety.Fetched s r 0x0428 p 4 .plain → r.toNat ≤ 1 → v 0 4 ≠ 0 → getF s SEQ_STATE ≠ 2 →
      exec (.setEpoch r p) s = .next (Safety.answered (identityChanged (setF a SYS_EPOCH (v 0 4))) r 0x0428 p 0 []))
    ∧ (Safety.Fetched s r 0x0510 p 72 .plain → (r.toNat ≤ 1 ∨ v 0 1 = r.toNat - 1) → v 0 1 < 16 → v 1 1 < 4 → v 2 6 = 0 →
      (∀ st < 4, rangeInRegion a (v 0 1) st (v (8 + 16 * st) 8) (v (16 + 16 * st) 8) = true) →
      exec (.snapArea r p) s = .next (Safety.answered (setSnap a (v 0 1) (v 1 1) { snapAt s (v 0 1) (v 1 1) with
        areas := [(v 8 8, v 16 8), (v 24 8, v 32 8), (v 40 8, v 48 8), (v 56 8, v 64 8)] }) r 0x0510 p 0 []))
    ∧ (Safety.Fetched s r 0x0511 p 8 .plain → r.toNat ≤ 1 → v 0 1 < 4 → v 1 7 = 0 → restoreOk a (v 0 1) = true →
      s.sys.restoring = none → Safety.RoomFor s q →
      exec (.restore r p) s = .next (let u := (Safety.pended a q).1
        { u with sys := { u.sys with restoring := some (v 0 1, s.ctl.nextCall) } }))
    ∧ (Safety.Fetched s r 0x0512 p 8 .plain → (r.toNat ≤ 1 ∨ v 0 1 = r.toNat - 1) → v 0 1 < 16 → v 1 1 < 4 → v 2 6 = 0 →
      let x := snapAt s (v 0 1) (v 1 1)
      exec (.snapInfo r p) s = .next (Safety.answered a r 0x0512 p 0 (leBytes 8 x.valid.toNat ++ leBytes 8 x.cycle.toNat
        ++ leBytes 4 x.epoch.toNat ++ leBytes 4 0
        ++ (List.range 4).flatMap (fun st => leBytes 8 (Config.snapNeed (imageId s (v 0 1)) st).toNat))))

/-- LINK_RETRAIN, LINK_SLIP, LINK_PRBS, LINK_PRBS_READ and LINK_REJOIN (R300, R307). -/
def Obligations.LinkCommands : Prop :=
  ∀ (s : State) (r : BitVec 5) (p : Packet),
    let v := fieldAt p.params
    let a := countFetch s r.toNat
    let n := v 0 1
    r.toNat ≤ 1 → n < 96 →
    (Safety.Fetched s r 0x0801 p 8 .plain → v 1 7 = 0 → (getF s SEQ_STATE ≠ 2 ∨ getF s (TS_STATE n) ≠ 2) →
      let u := if getF s (LSTATE n) = 2 ∨ getF s (LSTATE n) = 3 then loseTrunk a n else a
      exec (.linkRetrain r p) s = .next (Safety.answered (retrainLanes u (trunkLanes u n)) r 0x0801 p 0 []))
    ∧ (Safety.Fetched s r 0x0802 p 8 .plain → 1 ≤ v 1 1 → v 1 1 ≤ 127 → v 2 6 = 0 → flag s (ALIGN_MANUAL n) = true →
      getF s (LANE_STATE n) = 3 →
      ∃ u, exec (.linkSlip r p) s = .next (Safety.answered u r 0x0802 p 0 (leBytes 4 0))
        ∧ (laneAt u n).offset = (laneAt s n).offset + BitVec.ofNat 7 (v 1 1) ∧ { u with lnk := a.lnk } = setF a (ALIGN_GOOD n) 0)
    ∧ (Safety.Fetched s r 0x0803 p 8 .plain → v 1 1 < 8 → v 2 1 < 8 → v 3 1 < 2 → v 4 4 = 0 → prbsRefused a n = false →
      ∃ t, exec (.linkPrbs r p) s = .next t ∧ getF t (PRBS_GEN n) = v 1 1 ∧ getF t (PRBS_CHK n) = v 2 1
        ∧ ((v 1 1 ≠ 0 ∨ v 2 1 ≠ 0) → getF t (LANE_STATE n) = 9)
        ∧ (v 3 1 = 1 → getF t (PRBS_ERR n) = 0 ∧ getF t (PRBS_BITS n) = 0))
    ∧ (∀ bits errs : BitVec 48, Safety.Fetched s r 0x0804 p 8 .plain → v 1 7 = 0 →
      exec (.linkPrbsRead r p bits errs) s = .next (let u := countPrbs a n bits.toNat errs.toNat
        Safety.answered u r 0x0804 p 0 (leBytes 8 (getF u (PRBS_BITS n)) ++ leBytes 8 (getF u (PRBS_ERR n)))))
    ∧ (Safety.Fetched s r 0x0805 p 8 .plain → v 1 7 = 0 →
      exec (.linkRejoin r p) s = .next (Safety.answered (reform a n) r 0x0805 p 0 []))

/-- FW_WRITE and FW_ACTIVATE (R238), OPT_WRITE, OPT_COMMIT, OPT_COMMIT_COMPLETE and OPT_READ (R239). -/
def Obligations.FirmwareCommands : Prop :=
  ∀ (s : State) (r : BitVec 5) (p : Packet),
    let v := fieldAt p.params
    let a := countFetch s r.toNat
    let q := ringRequest r.toNat 0x0313 p
    (∀ data : List Byte, Safety.Fetched s r 0x0310 p (if v 8 8 = 0 then 16 + v 4 4 else 16) .plain → r.toNat ≤ 1 →
      v 0 4 + v 4 4 ≤ 6 * 2 ^ 20 →
      exec (.fwWrite r p data) s = .next (Safety.answered { a with nv := { a.nv with
        banks := wrList a.nv.banks (inactiveBase s + v 0 4) (if v 8 8 = 0 then p.params.drop 16 else data.take (v 4 4)) } } r 0x0310 p 0 []))
    ∧ (Safety.Fetched s r 0x0311 p 0 .plain → r.toNat ≤ 1 →
      (Config.bankGood (rdList s.nv.banks (inactiveBase s) (6 * 2 ^ 20)) = true → (∀ g, governing s = some g → g.2.1 < 2 ^ 32 - 1) →
        ∃ t, exec (.fwActivate r p) s = .next t
        ∧ t = Safety.answered (setF (writeSelector a) NEXT_BANK (if activeBank s then 0 else 1)) r 0x0311 p 0 []
        ∧ activeBank t = (if activeBank s then false else true) ∧ getF t NEXT_BANK = (if activeBank s then 0 else 1)
        ∧ t.nv.banks = s.nv.banks ∧ t.nv.words = s.nv.words)
      ∧ (Config.bankGood (rdList s.nv.banks (inactiveBase s) (6 * 2 ^ 20)) = false →
        exec (.fwActivate r p) s = .next (Safety.answered a r 0x0311 p 0x0040 [])))
    ∧ (Safety.Fetched s r 0x0312 p (8 + v 2 2) .plain → r.toNat ≤ 1 → 1 ≤ v 2 2 → v 2 2 ≤ 224 → v 0 2 + v 2 2 ≤ 0xFFC → v 4 4 = 0 →
      exec (.optWrite r p) s = .next (Safety.answered { a with nv := { a.nv with
        image := setOptList a.nv.image (v 0 2) (p.params.drop 8) } } r 0x0312 p 0 []))
    ∧ (Safety.Fetched s r 0x0313 p 0 .plain → r.toNat ≤ 1 → s.nv.commit = none → Safety.RoomFor s q →
      exec (.optCommit r p) s = .next (let u := (Safety.pended a q).1
        { u with nv := { u.nv with image := sealOptions a.nv.image, commit := some s.ctl.nextCall } }))
    ∧ (∀ (b : Bool) (id : Nat), s.nv.commit = some id → ∃ t, exec (.optCommitComplete b) s = .next t
        ∧ t = (let u := { s with nv := { s.nv with commit := none, words := s.nv.image, good := b } }
          if b then finalReply u id 0 [] else finalReply (setFlag u OPT_DEFAULT true) id 0x0030 [])
        ∧ t.nv = { s.nv with commit := none, words := s.nv.image, good := b } ∧ (b = false → flag t OPT_DEFAULT = true))
    ∧ (Safety.Fetched s r 0x0314 p 8 .plain → r.toNat ≤ 1 → 1 ≤ v 2 2 → v 2 2 ≤ 112 → v 0 2 + v 2 2 ≤ 0x1000 → v 4 4 = 0 →
      exec (.optRead r p) s
        = .next (Safety.answered a r 0x0314 p 0 ((List.range (v 2 2)).map (fun i => optReadByte s.nv.words (v 0 2 + i)))))

/-- IMAGE_LOAD (R219, R225, R226 step 1), IMAGE_ABORT (R223), IMAGE_UNLOAD and UNLOAD_BOUNDARY (R233), CFG_ERR_CLEAR (R234). -/
def Obligations.LoadCommands : Prop :=
  ∀ (s : State) (r : BitVec 5) (p : Packet),
    let v := fieldAt p.params
    let q := ringRequest r.toNat 0x0303 p
    (∀ header : List Byte, Safety.Fetched s r 0x0301 p 72 .plain →
      (r.toNat ≤ 1 ∨ (bitOf (v 0 1) 1 = true ∧ v 1 1 = r.toNat - 1)) → v 0 1 < 8 → v 1 1 < 16 → v 2 1 < 32 → v 3 1 = 0 →
      1 ≤ v 4 2 → v 4 2 ≤ 512 → 1 ≤ v 6 2 → v 0x16 2 = 0 → loading s = false → s.load.unload = none →
      (bitOf (v 0 1) 1 = true ∨ getF s SEQ_STATE ≠ 2) → banksFree s = true → Safety.RoomFor s q →
      check0101 (fun o => header.getD o 0) = none → lengths0102 (fun o => header.getD o 0) (v 8 8) = none →
      (bitOf (v 0 1) 1 = true → bitOf (v 0 1) 2 = true → getF s CYCLE_NUM < v 0x10 6) →
      (∀ st < 4, v (0x28 + 8 * st) 8 + stageLines (v 8 8) ≤ getF s (HBM_LINES (v 1 1) st)) →
      ∃ t, exec (.imageLoad r p header) s = .next t ∧ getF t LOAD_PHASE = 1 ∧ getF t LOAD_PARTITION = v 1 1
        ∧ getF t LOAD_PARTIAL = bitsOf (v 0 1) 1 1 ∧ t.load.call = s.ctl.nextCall ∧ t.load.len = v 8 8 ∧ t.load.header = header
        ∧ (bitOf (v 0 1) 1 = true → t.eng = s.eng ∧ getF t SEQ_STATE = getF s SEQ_STATE)
        ∧ (bitOf (v 0 1) 1 = false → getF t SEQ_STATE = 0))
    ∧ (Safety.Fetched s r 0x0302 p 1 .plain → (r.toNat ≤ 1 ∨ v 0 1 = r.toNat - 1) → loading s = true → v 0 1 = getF s LOAD_PARTITION →
      ∃ t, exec (.imageAbort r p) s = .next (Safety.answered t r 0x0302 p 0 [])
        ∧ t = failLoad (countFetch s r.toNat) (abortRecord s) ∧ getF t LOAD_PHASE = 7 ∧ flag t CFG_ERR = true
        ∧ loading t = false ∧ getF t LOAD_ERR_0 = (s.load.ldev * 2 ^ 16 + 0xFFFFFFFC * 2 ^ 32) % 2 ^ LOAD_ERR_0.width)
    ∧ (Safety.Fetched s r 0x0303 p 8 .plain → (r.toNat ≤ 1 ∨ v 0 1 = r.toNat - 1) → v 0 1 < 16 → v 1 7 = 0 → loading s = false →
      s.load.unload = none → Safety.RoomFor s q →
      ∃ t, exec (.imageUnload r p) s = .next t ∧ t.load.unload = some (s.ctl.nextCall, v 0 1))
    ∧ (∀ call part : Nat, s.load.unload = some (call, part) → part < 16 → flag s IN_CYCLE = false → flag s IN_COMMIT = false →
      ∃ t, exec .unloadBoundary s = .next t ∧ t.load.unload = none ∧ getF t LOAD_PARTITION = part
        ∧ (∀ k < 128, getF s (TILE_PARTITION k) = part → flag t (TILE_GATED k) = true ∧ flag t (TILE_LOADED k) = false))
    ∧ (hostUp s = true → exec .cfgErrClear s = .next (setF s CFG_ERR 0))

/-- The phases of a load (R225 to R231), a failing access of its stream (R222, R454), and TILE_WAKE (R509). -/
def Obligations.LoadPhases : Prop :=
  ∀ s : State,
    (∀ dt body : List Byte, loading s = true → getF s LOAD_PHASE = 1 → dt.length = 272 * s.load.dtCount → 256 + body.length = s.load.len →
      ∃ t, exec (.loadFetchComplete dt body) s = .next t ∧ getF t LOAD_PHASE = 2 ∧ t.load.dt = dt
        ∧ t.load.ldev = (ownLdev s dt).getD 0x3FF ∧ t.eng = s.eng)
    ∧ (loading s = true → getF s LOAD_PHASE = 1 → ∃ t, exec (.hostLinkDmaError .imageStream) s = .next t ∧ getF t LOAD_PHASE = 7
        ∧ flag t CFG_ERR = true ∧ loading t = false)
    ∧ (loading s = true → getF s LOAD_PHASE = 2 → (loadKey s = none ∨ stageBad s = none) → ∃ t, exec .loadVerifyComplete s = .next t
        ∧ (authDetail s (staged s) = none → t = setFs s [(LOAD_PHASE, 3), (LOAD_BYTES, s.load.len)])
        ∧ (∀ d, authDetail s (staged s) = some d → getF t LOAD_PHASE = 7 ∧ flag t CFG_ERR = true ∧ flag t TIO_DISABLED = true
            ∧ flag t FAB_OE = false ∧ flag t FB_OE = false ∧ loading t = false))
    ∧ (∀ x : Nat × Nat, loading s = true → stageBad s = some x →
      (getF s LOAD_PHASE = 2 → (loadKey s).isSome = true → ∃ t, exec .loadVerifyComplete s = .next t ∧ getF t LOAD_PHASE = 7 ∧ flag t ALARM = true)
      ∧ (getF s LOAD_PHASE = 3 → s.load.resetDue = none →
        ∃ t, exec .loadCheckComplete s = .next t ∧ getF t LOAD_PHASE = 7 ∧ flag t ALARM = true)
      ∧ (getF s LOAD_PHASE = 4 → s.load.waking = [] →
        ∃ t, exec .loadWriteComplete s = .next t ∧ getF t LOAD_PHASE = 7 ∧ flag t ALARM = true))
    ∧ (loading s = true → getF s LOAD_PHASE = 3 → s.load.resetDue = none → stageBad s = none →
      let g := imageOf s
      let u := { s with load := { s.load with ldev := g.ldev } }
      (loaderChecks u g = none → ∃ t, exec .loadCheckComplete s = .next t ∧ getF t LOAD_PHASE = 4)
      ∧ (∀ e, loaderChecks u g = some e → ∃ t, exec .loadCheckComplete s = .next t ∧ getF t LOAD_PHASE = 7 ∧ flag t CFG_ERR = true
          ∧ getF t LOAD_ERR_1 = e.loc % 2 ^ LOAD_ERR_1.width))
    ∧ (∀ tile : BitVec 7, s.load.waking.contains tile.toNat = true → ∃ t, exec (.tileWake tile) s = .next t
        ∧ flag t (TILE_GATED tile.toNat) = false ∧ flag t (TILE_FENCED tile.toNat) = false
        ∧ getF t WAKE_COUNT = min (getF s WAKE_COUNT + 1) (2 ^ WAKE_COUNT.width - 1)
        ∧ t.load.waking = s.load.waking.erase tile.toNat)
    ∧ (loading s = true → getF s LOAD_PHASE = 4 → s.load.waking = [] → stageBad s = none → flag s LOAD_PARTIAL = true →
      ∃ t, exec .loadWriteComplete s = .next t ∧ getF t LOAD_PHASE = 5 ∧ t.load.ident.isSome = true ∧ getF t SEQ_STATE = getF s SEQ_STATE)
    ∧ (loading s = true → getF s LOAD_PHASE = 4 → s.load.waking = [] → stageBad s = none → flag s LOAD_PARTIAL = false →
      ∃ t, exec .loadWriteComplete s = .next t ∧ getF t LOAD_PHASE = 6 ∧ getF t SEQ_STATE = 1 ∧ getF t CYCLE_NUM = 0
        ∧ flag t CFG_ERR = false ∧ loading t = false)
    ∧ (∀ part : Nat, s.load.resetDue = some part → flag s IN_CYCLE = false → flag s IN_COMMIT = false →
      ∃ t, exec .partialLoadBoundary s = .next t ∧ t.load.resetDue = none
        ∧ (∀ k < 128, getF s (TILE_PARTITION k) = part → flag t (TILE_IN_RESET k) = true))
    ∧ (∀ x : ImageIdent, s.load.ident = some x → releaseOpen s = true →
      ∃ t, exec .loadRelease s = .next t ∧ getF t LOAD_PHASE = 6 ∧ loading t = false ∧ getF t CYCLE_NUM = getF s CYCLE_NUM
        ∧ (getF s SEQ_STATE = 0 → getF t SEQ_STATE = 1) ∧ hasImage t (getF s LOAD_PARTITION) = true)

/-- TIME_SYNC_SEND (R317), TIME_SYNC (R322), PDELAY_INTERVAL, PDELAY_REQ, PDELAY_RESP and PDELAY_TIMEOUT (R320), LOSS_OF_MASTER (R324). -/
def Obligations.TimeOverLinks : Prop :=
  ∀ s : State,
    (getF s TIME_ROLE = 2 → ∃ t, exec .timeSyncSend s = .next t ∧ t.regs = s.regs
      ∧ ∀ k ∈ children s, ∀ n, (activeLanes s k).head? = some n →
        (n, 0, ⟨ftTime, timeBits s 0 (nextSeqId s (k * 4)) s.time.sec.toNat s.time.ns (s.time.frac.toNat / 2 ^ 24 : Nat) (getF s TSTATE == 3)⟩)
          ∈ t.lnk.out ∧ nextSeqId t (k * 4) = (nextSeqId s (k * 4) + 1) % 65536)
    ∧ (∀ (rx : Rx) (res : List (BitVec 32)) (k : Nat), trafficTrunk s rx.lane.toNat = some k →
      (getF s TIME_ROLE = 2 → ∃ t, exec (.timeSync rx res) s = .next t ∧ flag t TIME_CONFLICT = true ∧ flag t (evPend evTimeConflict) = true
          ∧ t.time = s.time)
      ∧ (getF s TIME_ROLE = 1 → getF s TIME_PARENT ≠ k →
          exec (.timeSync rx res) s = .next { heard s rx with time := { s.time with ignored := s.time.ignored + 1 } })
      ∧ (getF s TIME_ROLE = 1 → getF s TIME_PARENT = k → mget s.time.mpdOk false k = true →
          let p := rx.payload
          let sent : Int := ((pf p 48 48 * 1000000000 + pf p 96 30) * 65536 : Nat)
          ∃ t, exec (.timeSync rx res) s = .next t ∧ getF t GM_HOLDOVER = pf p 36 1
            ∧ getF t LAST_OFFSET = patternOf 64 ((now16 s : Int)
                - (sent + signedOf 64 (pf p 128 64) + ((getF s (TRUNK_MPD k) : Int) + signedOf 32 (getF s (TRUNK_ASYM k)))))))
    ∧ (∃ t, exec .pdelayInterval s = .next t ∧ t.regs = s.regs ∧ ∀ k < 96, carriesTime s k = true → getF s (LSTATE k) = 2 →
        mget t.time.asked none k = some (nextSeqId s (k * 4 + 2), now16 s))
    ∧ (∀ (rx : Rx) (turn : BitVec 32) (k : Nat), trafficTrunk s rx.lane.toNat = some k →
      ∃ t n, (activeLanes s k).head? = some n ∧ exec (.pdelayReq rx turn) s = .next t ∧ t.regs = s.regs
        ∧ t.lnk.out = s.lnk.out ++ [(n, 0, ⟨ftTime, timeBits s 3 (nextSeqId s (k * 4 + 3)) 0 0 (turn.toNat : Int) false⟩)])
    ∧ (∀ (rx : Rx) (k q t1 : Nat), trafficTrunk s rx.lane.toNat = some k → mget s.time.asked none k = some (q, t1) →
      let x := (now16 s : Int) - (t1 : Int) - signedOf 64 (pf rx.payload 128 64)
      ∃ t, exec (.pdelayResp rx) s = .next t ∧ mget t.time.asked none k = none ∧ mget t.time.mpdOk false k = true
        ∧ (x % 2 = 0 → getF t (TRUNK_MPD k) = patternOf 32 (x / 2)) ∧ Safety.SameFields [fun _ => TRUNK_MPD k] s t)
    ∧ (∀ k : BitVec 7, exec (.pdelayTimeout k) s
        = .next { s with time := { s.time with asked := mset s.time.asked none k.toNat none } })
    ∧ (getF s TSTATE = 2 → (getF s TIME_ROLE = 1 ∨ (getF s TIME_ROLE = 2 ∧ flag s TIME_SOURCE = true)) →
      ∃ t, exec .lossOfMaster s = .next t ∧ getF t TSTATE = 3 ∧ flag t (evPend evTimeState) = true
        ∧ Safety.SameFields [fun _ => TSTATE, evPend] s t)

/-- The PTP messages of R327. -/
def Obligations.EthernetTime : Prop :=
  ∀ (s : State) (seq : BitVec 16) (sec : BitVec 48) (ns : BitVec 32) (corr : BitVec 64),
    let d : PtpFrame := ⟨ptpDomain s, flag s ETH_ENCAP⟩
    let origin : Int := ((sec.toNat * 1000000000 + ns.toNat) * 65536 : Nat)
    (ptpSlave s = true →
      (∃ t, exec (.ethSync d seq true sec ns corr) s = .next t ∧ t.time.ethSync = some (seq.toNat, now16 s, signedOf 64 corr.toNat)
        ∧ t.regs = s.regs)
      ∧ (s.time.ethMpd = none → ∃ t, exec (.ethSync d seq false sec ns corr) s = .next t
          ∧ t.time.ethPair = some (origin + signedOf 64 corr.toNat, now16 s) ∧ t.time.ethSync = none ∧ t.regs = s.regs)
      ∧ (∀ m, s.time.ethMpd = some m → ∃ t, exec (.ethSync d seq false sec ns corr) s = .next t
          ∧ getF t LAST_OFFSET = patternOf 64 ((now16 s : Int) - (origin + signedOf 64 corr.toNat + m)))
      ∧ (∀ (t2 : Nat) (c : Int), s.time.ethMpd = none → s.time.ethSync = some (seq.toNat, t2, c) →
          ∃ t, exec (.followUp d seq sec ns corr) s = .next t
            ∧ t.time.ethPair = some (origin + c + signedOf 64 corr.toNat, t2) ∧ t.time.ethSync = none ∧ t.regs = s.regs)
      ∧ (∃ t, exec .ethDelayReqSend s = .next t ∧ t.time.ethReq = some (nextSeqId s 401, now16 s)
          ∧ t.time.ptpOut = s.time.ptpOut ++ [⟨d, 1, nextSeqId s 401, 0, []⟩] ∧ t.regs = s.regs)
      ∧ (∀ (t1 : Int) (t2 t3 : Nat), s.time.ethReq = some (seq.toNat, t3) → s.time.ethPair = some (t1, t2) →
          let x : Int := ((t2 : Int) - t1) + (origin - signedOf 64 corr.toNat - (t3 : Int))
          ∃ t, exec (.delayResp d seq sec ns corr) s = .next t ∧ t.time.ethReq = none ∧ t.regs = s.regs
            ∧ (x % 2 = 0 → t.time.ethMpd = some (x / 2))))
    ∧ (ptpMaster s = true →
      (∀ req : BitVec 80, ∃ t, exec (.delayReq d seq req) s = .next t ∧ t.regs = s.regs
          ∧ t.time.ptpOut = s.time.ptpOut ++ [⟨d, 9, seq.toNat, now16 s, leBytes 10 req.toNat⟩])
      ∧ (∃ t, exec .ethSyncSend s = .next t ∧ t.regs = s.regs
          ∧ t.time.ptpOut.map (fun m => (m.frame, m.kind)) = s.time.ptpOut.map (fun m => (m.frame, m.kind)) ++ [(d, 0), (d, 11)]))
    ∧ (∀ body : List Byte, ptpSlave s = true ∨ ptpMaster s = true → exec (.announce d body) s = .next { s with time := { s.time with announce := body } })
    ∧ (∀ (f : PtpFrame) (two : Bool) (req : BitVec 80) (body : List Byte) (c : Instr), ptpHears s f = false →
        c ∈ [Instr.ethSync f seq two sec ns corr, Instr.followUp f seq sec ns corr, Instr.delayReq f seq req, Instr.delayResp f seq sec ns corr,
          Instr.announce f body] → exec c s = .next s)

/-- RATE_ADJ and TIME_RATE (R312), TIME_GET, TIME_SET and TIME_STEP (R313, R335), COMPARATOR_WRITE (R329, R330) and COMPARATOR_FIRE
(R328, R331). -/
def Obligations.TimeControl : Prop :=
  ∀ (s : State) (r : BitVec 5) (p : Packet),
    let v := fieldAt p.params
    let a := countFetch s r.toNat
    let byHost := getF s TIME_ROLE = 0 ∨ getF s TIME_ROLE = 3 ∨ (getF s TIME_ROLE = 2 ∧ flag s TIME_SOURCE = false)
    (∀ x : BitVec 32, hostUp s = true →
      (byHost → exec (.rateAdj x) s = .next (setF s RATE_ADJ (patternOf 32 (max (-500000) (min 500000 (signedOf 32 x.toNat))))))
      ∧ (¬ byHost → exec (.rateAdj x) s = .next (setF s STEP_REFUSED 1)))
    ∧ (Safety.Fetched s r 0x0901 p 0 .plain → exec (.timeGet r p) s = .next (Safety.answered a r 0x0901 p 0
        (leBytes 8 s.time.sec.toNat ++ leBytes 4 s.time.ns ++ leBytes 2 (s.time.frac.toNat / 2 ^ 24) ++ leBytes 1 (getF s TSTATE) ++ [0])))
    ∧ (Safety.Fetched s r 0x0902 p 16 .plain → r.toNat ≤ 1 → v 0 8 < 2 ^ 48 → v 8 4 < 1000000000 → v 14 2 = 0 →
      (getF s SEQ_STATE ≠ 2 ∨ flag s SEQ_MODE = false) →
      ∃ u, exec (.timeSet r p) s = .next (Safety.answered u r 0x0902 p 0 []) ∧ u.time.sec.toNat = v 0 8 ∧ u.time.ns = v 8 4
        ∧ u.time.frac.toNat = v 12 2 * 2 ^ 24)
    ∧ (Safety.Fetched s r 0x0903 p 8 .plain → r.toNat ≤ 1 →
      ((getF s SEQ_STATE ≠ 2 ∨ flag s SEQ_MODE = false ∨ (signedOf 64 (v 0 8)).natAbs ≤ 65536000) →
        exec (.timeStep r p) s = .next (Safety.answered (stepBy a (signedOf 64 (v 0 8))) r 0x0903 p 0 []))
      ∧ (getF s SEQ_STATE = 2 → flag s SEQ_MODE = true → 65536000 < (signedOf 64 (v 0 8)).natAbs →
        exec (.timeStep r p) s = .next (Safety.answered (setF a STEP_REFUSED 1) r 0x0903 p 0x0020 [])))
    ∧ (Safety.Fetched s r 0x0904 p 4 .plain → r.toNat ≤ 1 → byHost →
      exec (.timeRate r p) s = .next (Safety.answered
        (setF a RATE_ADJ (patternOf 32 (max (-500000) (min 500000 (signedOf 32 (v 0 4)))))) r 0x0904 p 0 []))
    ∧ (∀ (j w : BitVec 3) (x : BitVec 32), hostUp s = true →
      let low := x.toNat &&& cmpKnown w.toNat = x.toNat
      (cmpOwner s j.toNat ≠ 0 → low → w.toNat < 5 → exec (.comparatorWrite j w x) s = .next s)
      ∧ (cmpOwner s j.toNat ≠ 0 → ¬ low → w.toNat < 5 → exec (.comparatorWrite j w x) s = .next (addF s RSVD_WRITE 1))
      ∧ (5 ≤ w.toNat → exec (.comparatorWrite j w x) s = .next (addF s UNMAPPED_ACCESS 1))
      ∧ (cmpOwner s j.toNat = 0 → w = 0 → ∃ t, exec (.comparatorWrite j w x) s = .next t ∧ getF t (CMP_MODE j.toNat) = bitsOf x.toNat 0 2
          ∧ getF t (CMP_ACTION j.toNat) = bitsOf x.toNat 2 1 ∧ (bitOf x.toNat 3 = true → getF t (CMP_FIRED j.toNat) = 0)
          ∧ mget t.time.armed false j.toNat = (bitsOf x.toNat 0 2 == 1 || bitsOf x.toNat 0 2 == 2)
          ∧ Safety.SameFields [fun _ => CMP_MODE j.toNat, fun _ => CMP_ACTION j.toNat, fun _ => CMP_FIRED j.toNat, fun _ => RSVD_WRITE] s t)
      ∧ (cmpOwner s j.toNat = 0 → w = 1 → ∃ t, exec (.comparatorWrite j w x) s = .next t
          ∧ getF t (CMP_TARGET_NS j.toNat) = x.toNat % 2 ^ (CMP_TARGET_NS j.toNat).width
          ∧ mget t.time.armed false j.toNat = (getF s (CMP_MODE j.toNat) == 1 || getF s (CMP_MODE j.toNat) == 2)
          ∧ Safety.SameFields [fun _ => CMP_TARGET_NS j.toNat, fun _ => RSVD_WRITE] s t
          ∧ getF t RSVD_WRITE = getF (countReserved s (cmpKnown 1) x.toNat) RSVD_WRITE)
      ∧ (cmpOwner s j.toNat = 0 → w = 2 ∨ w = 3 → ∃ t, exec (.comparatorWrite j w x) s = .next t
          ∧ (w = 2 → getF t (CMP_TARGET_SEC j.toNat) % 2 ^ 32 = x.toNat)
          ∧ (w = 3 → getF t (CMP_TARGET_SEC j.toNat) / 2 ^ 32 = x.toNat % 2 ^ 16)
          ∧ mget t.time.armed false j.toNat = (getF s (CMP_MODE j.toNat) == 1 || getF s (CMP_MODE j.toNat) == 2)
          ∧ Safety.SameFields [fun _ => CMP_TARGET_SEC j.toNat, fun _ => RSVD_WRITE] s t)
      ∧ (cmpOwner s j.toNat = 0 → w = 4 → exec (.comparatorWrite j w x) s = .next (setF s (CMP_PERIOD_NS j.toNat) x.toNat)))
    ∧ (cmpOwner s 6 = 2 → ∃ t, exec (.comparatorFire 6) s = .next t ∧ t.sys.ops.length = s.sys.ops.length
        ∧ (∀ g ∈ s.sys.ops, opReached s g = true → { g with fired := true } ∈ t.sys.ops) ∧ t.eng = s.eng ∧ t.time = s.time)
    ∧ (∀ j : BitVec 3, cmpDue s j.toNat = true → ∃ t, exec (.comparatorFire j) s = .next t ∧ getF t (CMP_FIRED j.toNat) = 1
        ∧ flag t (evPend (evCmpFired j.toNat)) = true
        ∧ (getF s (CMP_MODE j.toNat) ≠ 2 → mget t.time.armed false j.toNat = false)
        ∧ (getF s (CMP_MODE j.toNat) = 2 → getF s (CMP_PERIOD_NS j.toNat) ≠ 0 → mget t.time.armed false j.toNat = true
            ∧ getF t (CMP_TARGET_NS j.toNat) = (cmpTarget s j.toNat + ((cmpDelta s j.toNat).toNat / getF s (CMP_PERIOD_NS j.toNat) + 1)
                * getF s (CMP_PERIOD_NS j.toNat)) % 1000000000))

/-- HALT_INPUT, HALT_DISCREPANCY and DISC_CLEAR (R332 to R334). -/
def Obligations.HaltInputs : Prop :=
  ∀ (s : State) (us : BitVec 32),
    (∀ b c : Bool, ∃ t, exec (.haltInput b c us) s = .next t ∧ flag t HALT_A = b ∧ flag t HALT_B = c ∧ t.eng = s.eng
        ∧ getF t SEQ_STATE = getF s SEQ_STATE ∧ (b = true → c = true → getF s SEQ_STATE = 2 → t.time.haltLatch = true)
        ∧ (flag s HALT_A = flag s HALT_B → b ≠ c → t.time.disagree = true)
        ∧ (flag s HALT_A ≠ flag s HALT_B → b = c → getF t HALT_LAST_US = us.toNat % 2 ^ HALT_LAST_US.width)
        ∧ (flag s HALT_A ≠ flag s HALT_B → b = c → s.time.disagree = true → us.toNat < haltDisc s → t.time.disagree = false
            ∧ getF t HALT_MISMATCH = min (getF s HALT_MISMATCH + 1) (2 ^ HALT_MISMATCH.width - 1)))
    ∧ (s.time.disagree = true → flag s HALT_A ≠ flag s HALT_B → ∃ t, exec .haltDiscrepancy s = .next t ∧ flag t HALT_DISC_LATCH = true
        ∧ flag t (evPend evHaltDiscrepancy) = true ∧ t.time.disagree = false ∧ (getF s SEQ_STATE = 2 → t.time.haltLatch = true)
        ∧ (getF s FAULT_CODE = 0 → getF t FAULT_CODE = fcHaltDiscrepancy) ∧ getF t SEQ_STATE = getF s SEQ_STATE ∧ t.eng = s.eng)
    ∧ (hostUp s = true → (flag s HALT_A = true ∨ flag s HALT_B = true) → exec .discClear s = .next s)
    ∧ (hostUp s = true → flag s HALT_A = false → flag s HALT_B = false → exec .discClear s = .next (setF s HALT_DISC_LATCH 0))

/-- HRING_EN (R348), DOORBELL (R345), HOST_RECORD_FETCH (R338, R346), SPILL_REFILL (R343), OUTBOUND_RECORD_WRITE (R347), EV_TIMER (R366) and
FLR (R341). -/
def Obligations.HostRings : Prop :=
  ∀ (s : State) (q : BitVec 15),
    let k := q.toNat
    let x := queueAt s k
    let fetched := getF s (Q_CONS_FETCHED k)
    let prod := getF s (Q_PROD k)
    let part := getF s (Q_PARTITION k)
    let stack := getF s (Q_STACK k)
    (hostUp s = true → flag s (Q_HRING_EN k) = false → ∃ t, exec (.hringEn q) s = .next t ∧ getF t (Q_HRING_EN k) = 1
        ∧ getF t (Q_PROD k) = 0 ∧ getF t (Q_CONS_FETCHED k) = 0 ∧ queueAt t k = { x with wbLast := 0 }
        ∧ Safety.SameFields [fun _ => Q_HRING_EN k, fun _ => Q_PROD k, fun _ => Q_CONS_FETCHED k] s t)
    ∧ (hostUp s = true → flag s (Q_HRING_EN k) = true → exec (.hringEn q) s = .next s)
    ∧ (∀ fn : BitVec 5, hostUp s = true →
        exec (.doorbell fn q none) s = .next { s with readData := if k < 16384 then fetched else prod })
    ∧ (∀ (fn : BitVec 5) (w : BitVec 64), hostUp s = true → flag s (Q_HRING_EN k) = true →
        (fn = 0 ∨ getF s (Q_PARTITION k) = fn.toNat - 1) →
        let a := if w.toNat < 2 ^ 32 then s else addF s RSVD_WRITE 1
        (k < 16384 → diff32 (w.toNat % 2 ^ 32) fetched ≤ ringSlots s k →
            exec (.doorbell fn q (some w)) s = .next (setF a (Q_PROD k) (w.toNat % 2 ^ 32)))
        ∧ (16384 ≤ k → diff32 prod (w.toNat % 2 ^ 32) ≤ diff32 prod fetched →
            exec (.doorbell fn q (some w)) s = .next (setF a (Q_CONS_FETCHED k) (w.toNat % 2 ^ 32)))
        ∧ (k < 16384 → ringSlots s k < diff32 (w.toNat % 2 ^ 32) fetched → ∃ t, exec (.doorbell fn q (some w)) s = .next t
            ∧ flag t (Q_DB_ERR k) = true ∧ flag t (queuePend k) = true ∧ getF t (Q_PROD k) = prod))
    ∧ (∀ (fn : BitVec 5) (w : BitVec 64), hostUp s = true → fn ≠ 0 → getF s (Q_PARTITION k) ≠ fn.toNat - 1 →
        exec (.doorbell fn q (some w)) s = .next (addF (if w.toNat < 2 ^ 32 then s else addF s RSVD_WRITE 1) DB_REJECT 1))
    ∧ (∀ bits : BitVec 512, k < 16384 → flag s (Q_ENABLE k) = true → flag s (Q_HRING_EN k) = true → fetched ≠ prod →
        unitOf s k = none → x.spill = [] → x.window.length < 32 → ∃ t, exec (.hostRecordFetch q [bits] false) s = .next t
          ∧ (queueAt t k).window = x.window ++ [{ recordOf bits fetched none with entered := s.time.periods, order := x.order }]
          ∧ getF t (Q_CONS_FETCHED k) = (fetched + 1) % 2 ^ 32 ∧ getF t (Q_PROD k) = prod ∧ t.qs.requester = fnOfPart part)
    ∧ (∀ bits : BitVec 512, k < 16384 → flag s (Q_ENABLE k) = true → flag s (Q_HRING_EN k) = true → fetched ≠ prod →
        (x.spill ≠ [] ∨ 32 ≤ x.window.length) → roomIn s k = true → lineOfPartition s part stack (spillLine s k x.spill.length) = true →
        ∃ t, exec (.hostRecordFetch q [bits] false) s = .next t ∧ (queueAt t k).window = x.window
          ∧ (queueAt t k).spill.length = x.spill.length + 1
          ∧ plainLine t stack (spillLine s k x.spill.length) = recordBytes (recordOf bits fetched none)
          ∧ getF t (Q_CONS_FETCHED k) = (fetched + 1) % 2 ^ 32)
    ∧ (∀ (m : SpillMark) (rest : List SpillMark), x.spill = m :: rest → x.window.length < 32 →
        (tagGood s part stack (spillLine s k 0) = true → (unitOf s k = none ∨ 16384 ≤ k) →
          ∃ t, exec (.spillRefill q false) s = .next t ∧ (queueAt t k).spill = rest ∧ t.regs = s.regs
          ∧ (queueAt t k).window = x.window
              ++ [{ spillRecord s k m with order := x.order, entered := if k < 16384 then s.time.periods else m.entered }])
        ∧ (∃ t, exec (.spillRefill q true) s = .next t ∧ (queueAt t k).spill = rest ∧ (queueAt t k).window = x.window
          ∧ flag t ALARM = true ∧ getF t (QC_DROPPED k) = min (getF s (QC_DROPPED k) + 1) (2 ^ (QC_DROPPED k).width - 1)))
    ∧ (∀ r : Record, hostSink s k = true → flag s (Q_HRING_EN k) = true → hostRoom s k = true → headOf s k = some r →
        let slot := slotAddr s k prod
        let wb := getF s (Q_WB_ADDR k) * 8
        ∃ t, exec (.outboundRecordWrite q false) s = .next t ∧ (queueAt t k).window = x.window.drop 1
          ∧ getF t (Q_PROD k) = (prod + 1) % 2 ^ 32 ∧ getF t (Q_CONS_FETCHED k) = fetched
          ∧ getF t (QC_RECORDS k) = min (getF s (QC_RECORDS k) + 1) (2 ^ (QC_RECORDS k).width - 1)
          ∧ (∀ i < 64, (slot + i < wb ∨ wb + 4 ≤ slot + i) → rdByte t.host (slot + i) = (recordBytes r).getD i 0)
          ∧ (∀ a, (a < slot ∨ slot + 64 ≤ a) → (a < wb ∨ wb + 4 ≤ a) → rdByte t.host a = rdByte s.host a))
    ∧ (getF s (Q_EV_TIMER k) ≠ 0 → x.unsignalled ≠ 0 → ∃ t, exec (.evTimer q) s = .next t ∧ flag t (queuePend k) = true
          ∧ queueAt t k = { x with unsignalled := 0 } ∧ Safety.SameFields [fun _ => queuePend k] s t)
    ∧ (∀ fn : BitVec 5, 1 ≤ fn.toNat → fn.toNat ≤ 16 → ∃ t, exec (.flr fn) s = .next t ∧ flag t (CR_ENABLE fn.toNat) = false
          ∧ (getF s (Q_PARTITION k) = fn.toNat - 1 → flag t (Q_HRING_EN k) = false)
          ∧ (getF s (Q_PARTITION k) ≠ fn.toNat - 1 → flag t (Q_HRING_EN k) = flag s (Q_HRING_EN k))
          ∧ (∀ c ∈ t.ctl.calls, c.via ≠ .ring fn.toNat) ∧ t.eng = s.eng)
    ∧ (∃ t, exec (.flr 0) s = .next t ∧ flag t (Q_HRING_EN k) = false ∧ (∀ n ≤ 16, flag t (CR_ENABLE n) = false) ∧ t.eng = s.eng)

/-- FLOW_RELEASE (R358), REMOTE_FORWARD (R359) and MSG (R360). -/
def Obligations.FlowsAndRemoteQueues : Prop :=
  ∀ s : State,
    (∀ (flow : BitVec 9) (q : Nat) (r : Record),
      let f := flow.toNat
      flowServes s f = true →
      (∀ m ∈ members s f, ∀ h, headOf s m = some h → (flowSeq h + 65536 - getF s (F_NEXT f)) % 65536 < 32768) →
      nextMember s f = some q → headOf s q = some r → hostRoom s (getF s (F_QBASE f)) = true →
      ∃ t, exec (.flowRelease flow) s = .next t ∧ getF t (F_NEXT f) = (flowSeq r + 1) % 2 ^ (F_NEXT f).width
        ∧ (queueAt t q).window = (queueAt s q).window.drop 1
        ∧ getF t (Q_PROD (getF s (F_QBASE f))) = (getF s (Q_PROD (getF s (F_QBASE f))) + 1) % 2 ^ 32
        ∧ getF t (QC_RECORDS q) = min (getF s (QC_RECORDS q) + 1) (2 ^ (QC_RECORDS q).width - 1))
    ∧ (∀ (q : BitVec 15) (r : Record), 16384 ≤ q.toNat → flag s (Q_ENABLE q.toNat) = true → flag s (Q_SINK q.toNat) = true →
      (queueAt s q.toNat).lent < getF s (Q_RCAP q.toNat) → headOf s q.toNat = some r →
      ((routeOfDev s (getF s (Q_RDEV q.toNat))).isSome = true → ∃ t, exec (.remoteForward q false) s = .next t
        ∧ (queueAt t q.toNat).window = (queueAt s q.toNat).window.drop 1 ∧ (queueAt t q.toNat).lent = (queueAt s q.toNat).lent + 1
        ∧ getF t (QC_RECORDS q.toNat) = min (getF s (QC_RECORDS q.toNat) + 1) (2 ^ (QC_RECORDS q.toNat).width - 1) ∧ t.eng = s.eng)
      ∧ ((routeOfDev s (getF s (Q_RDEV q.toNat))) = none → getF s FAULT_CODE = 0 → flag s IN_COMMIT = false →
        ∃ t, exec (.remoteForward q false) s = .next t ∧ getF t FAULT_CODE = fcRouteUnbound ∧ t.qs.q = s.qs.q))
    ∧ (∀ (u : State) (rx : Rx) (k : Nat), Safety.Delivered s rx u k → rx.type = 2 → getF s (TS_STATE k) = 2 →
      pf rx.payload 0 9 = getF s DEV_ID →
      (pf rx.payload 36 2 = 3 → ∃ t, exec (.msg rx) s = .next t ∧ t.regs = s.regs
        ∧ queueAt t (16384 + pf rx.payload 18 14) = { queueAt s (16384 + pf rx.payload 18 14) with
            lent := (queueAt s (16384 + pf rx.payload 18 14)).lent - pf rx.payload 46 16 })
      ∧ (pf rx.payload 36 2 = 0 → ∃ t h, exec (.msg rx) s = .next t ∧ t.regs = s.regs ∧ t.qs.q = s.qs.q
        ∧ mget t.qs.asm none (asmKey (pf rx.payload 9 9) (pf rx.payload 18 14)) = some h ∧ h.dcyc.toNat = pf rx.payload 46 48
        ∧ h.seq.toNat = pf rx.payload 94 32 ∧ h.alive.toNat = pf rx.payload 126 8 ∧ h.check.toNat = pf rx.payload 134 64
        ∧ h.remote = some (BitVec.ofNat 9 (pf rx.payload 9 9))))

/-- BAR4_ACCESS (R340, R433, R436, R438, R440). -/
def Obligations.Bar4Accesses : Prop :=
  ∀ (s : State) (fn : BitVec 5) (off : BitVec 36) (n : BitVec 13) (data : List Byte),
    let f := fn.toNat
    let st := off.toNat / 2 ^ 34
    let line := bar4Line s f off.toNat
    let start := hbmAddr st (line * 64 + off.toNat % 64)
    let mayReach := fun len => (bar4Lines s f off.toNat len).all (lineAllowed s (f - 1) st) = true
    hostUp s = true → f ≤ 16 →
    (1 ≤ n.toNat → mayReach n.toNat → (bar4Lines s f off.toNat n.toNat).all (lineGood s st) = true →
      inSnapArea s ((ownerOfLine s st line).getD 0) st line = false →
      ∃ t, exec (.bar4Access fn off (.read n) .none false) s = .next t ∧ t.readData = leNat (rdList s.hbm start n.toNat)
        ∧ t.regs = s.regs ∧ t.hbm = s.hbm)
    ∧ (data ≠ [] → mayReach data.length → off.toNat % 64 = 0 → data.length % 64 = 0 →
      ∃ t, exec (.bar4Access fn off (.write data) .none false) s = .next t
        ∧ (∀ i < data.length, rdByte t.hbm (start + i) = data.getD i 0)
        ∧ (∀ a, (a < start ∨ start + data.length ≤ a) → rdByte t.hbm a = rdByte s.hbm a))
    ∧ (1 ≤ n.toNat → ¬ mayReach n.toNat → ∃ t, exec (.bar4Access fn off (.read n) .none false) s = .next t ∧ getF t (BAR4_ERR f) = 1
        ∧ getF t RIGHT_REFUSALS = min (getF s RIGHT_REFUSALS + 1) (2 ^ RIGHT_REFUSALS.width - 1) ∧ t.hbm = s.hbm
        ∧ t.readData = s.readData)
    ∧ (1 ≤ n.toNat → mayReach n.toNat → (bar4Lines s f off.toNat n.toNat).all (lineGood s st) = false →
      ∃ t, exec (.bar4Access fn off (.read n) .none false) s = .next t ∧ getF t (BAR4_ERR f) = 2 ∧ flag t ALARM = true
        ∧ t.hbm = s.hbm ∧ t.readData = s.readData)
    ∧ (∀ (a : Bar4) (e : ReadErrorKind), s.sec.rights.isSome = true → ∃ t, exec (.bar4Access fn off a e true) s = .next t
        ∧ getF t (BAR4_ERR f) = 3 ∧ t.hbm = s.hbm ∧ t.readData = s.readData)

/-- QUEUE_GET, QUEUE_SET, QUEUE_STATS, PORT_GET, FLOW_SET, CRC_SET and DLOG_SET (R365). A field takes the bits of the carried block at its
own place. -/
def Obligations.QueueCommands : Prop :=
  ∀ (s : State) (r : BitVec 5) (p : Packet),
    let v := fieldAt p.params
    let a := countFetch s r.toNat
    let k := v 0 2
    let u := v 0 1
    let own := fun q => r.toNat ≤ 1 ∨ getF s (Q_PARTITION q) = r.toNat - 1
    let carried := fun (base n : Nat) (f : Field) => bitsOf (v 8 n) (f.key - base * 8) f.width
    (Safety.Fetched s r 0x0A01 p 8 .plain → k < 32768 → own k → v 2 6 = 0 →
      exec (.queueGet r p) s = .next (Safety.answered a r 0x0A01 p 0 (blockBytes (queueVal a k) (queueWord k) (queueBase k) 0 16)))
    ∧ (Safety.Fetched s r 0x0A02 p 72 .plain → k < 32768 → own k → v 2 6 = 0 →
      noReserved (queueWord k) (queueBase k) 0 (v 8 64) 16 = true → flag s (Q_ENABLE k) = false → flag s (Q_HRING_EN k) = false →
      (r.toNat ≤ 1 ∨ carried (queueBase k) 64 (Q_PARTITION k) = r.toNat - 1) → (k < 16384 → carried (queueBase k) 64 (Q_SINK k) = 0) →
      ∃ t, exec (.queueSet r p) s = .next (Safety.answered t r 0x0A02 p 0 [])
        ∧ (∀ f ∈ [Q_PARTITION k, Q_WIDTH_M1 k, Q_STACK k, Q_BASE_LINE k, Q_SPILL_LOG2 k, Q_RDEV k, Q_RQ k, Q_RDELAY k, Q_RCAP k,
            Q_HRING_LOG2 k, Q_WB_LOG2 k, Q_HRING_ADDR k, Q_WB_ADDR k, Q_LATE_EV k, Q_EV_THRESH k, Q_EV_TIMER k, Q_HRING_EN k],
            getF t f = carried (queueBase k) 64 f)
        ∧ (16384 ≤ k → getF t (Q_SINK k) = carried (queueBase k) 64 (Q_SINK k)) ∧ t.eng = s.eng)
    ∧ (Safety.Fetched s r 0x0A03 p 8 .plain → k < 32768 → own k → v 2 6 = 0 → ∃ t, exec (.queueStats r p) s
        = .next (Safety.answered t r 0x0A03 p 0 (blockBytes (getF a) (qcntWord k) (qcntBase k) 0 8))
        ∧ (∀ f ∈ [QC_RECORDS k, QC_DROPPED k, QC_SPILLED k, QC_WAIT_NS_SUM k, QC_MAX_WAIT_NS k, QC_MAX_DEPTH k], getF t f = 0)
        ∧ { t with regs := a.regs } = a)
    ∧ (Safety.Fetched s r 0x0A04 p 8 .plain → k < 2048 → (r.toNat ≤ 1 ∨ getF s (TILE_PARTITION (k / 16)) = r.toNat - 1) → v 2 6 = 0 →
      exec (.portGet r p) s = .next (Safety.answered a r 0x0A04 p 0 (blockBytes (portVal a k) (portWord k) (portBase k) 0 8)))
    ∧ (Safety.Fetched s r 0x0A05 p 16 .plain → k < 512 → v 2 6 = 0 → noReserved (flowWord k) (flowBase k) 0 (v 8 8) 2 = true →
      flag s (F_ENABLE k) = false → (∀ i ≤ carried (flowBase k) 8 (F_COUNT_M1 k), own (carried (flowBase k) 8 (F_QBASE k) + i)
        ∧ 16384 ≤ carried (flowBase k) 8 (F_QBASE k) + i ∧ carried (flowBase k) 8 (F_QBASE k) + i < 32768) →
      ∃ t, exec (.flowSet r p) s = .next (Safety.answered t r 0x0A05 p 0 [])
        ∧ (∀ f ∈ [F_NEXT k, F_QBASE k, F_COUNT_M1 k, F_ENABLE k], getF t f = carried (flowBase k) 8 f) ∧ { t with regs := a.regs } = a)
    ∧ (Safety.Fetched s r 0x0A06 p 40 .plain → u < 64 → v 1 7 = 0 → noReserved (crcWord u) (crcBase u) 0 (v 8 32) 8 = true →
      own (carried (crcBase u) 32 (U_QUEUE u)) → flag s (U_ENABLE u) = false →
      ∃ t, exec (.crcSet r p) s = .next (Safety.answered t r 0x0A06 p 0 [])
        ∧ (∀ f ∈ [U_WIDTH_M1 u, U_REFIN u, U_REFOUT u, U_QUEUE u, U_ACTION u, U_ALIVE_EN u, U_POLY u, U_INIT u, U_XOROUT u, U_ENABLE u],
            getF t f = carried (crcBase u) 32 f))
    ∧ (Safety.Fetched s r 0x0A07 p 40 .plain → u < 16 → v 1 7 = 0 → (r.toNat ≤ 1 ∨ u = r.toNat - 1) →
      noReserved (dlogWord u) (dlogBase u) 0 (v 8 32) 8 = true → carried (dlogBase u) 32 (DLOG_LOG2 u) ≤ 26 →
      dlogSetFits a (ringRequest r.toNat 0x0A07 p) = true → ∃ t, exec (.dlogSet r p) s = .next (Safety.answered t r 0x0A07 p 0 [])
        ∧ (∀ f ∈ [DLOG_STACK u, DLOG_BASE_LINE u, DLOG_LOG2 u, DLOG_CONS u], getF t f = carried (dlogBase u) 32 f)
        ∧ { t with regs := a.regs } = a)

/-- RC_READ and LATCHING_READ: counters clear, and high words are held, when they are read (R15, R16). A fenced stop answers with an
error (R480). -/
def Obligations.RegisterReads : Prop :=
  ∀ (s : State) (a : Access) (o : Nat), hostUp s = true → barOffset a = some o → a.wide = false → hostScratch s o false none = none →
    (fencedAt s o = false → sealedAt s o = false → (a.uncorr = false ∨ placeOf o ≠ .traceWindow) →
      (∃ t, exec (.rcRead a) s = .next t ∧ t.readData = readWord s o ∧ (∀ f ∈ clearedBy o, getF t f = 0) ∧ t.eng = s.eng ∧ t.hbm = s.hbm
        ∧ ((∀ k, placeOf o ≠ .fb k) → ∀ f : Field, (∀ g ∈ clearedBy o, f.key ≠ g.key) → getF t f = getF s f))
      ∧ (∃ t, exec (.latchingRead a) s = .next t ∧ t.readData = readWord s o ∧ (∀ h ∈ latchedBy o, readWord t h = wordAtOffset s h)
        ∧ (∀ h, h ∉ latchedBy o → mget t.ring.latch 0 h = mget s.ring.latch 0 h)))
    ∧ (fencedAt s o = false → a.uncorr = true → placeOf o = .traceWindow →
      exec (.rcRead a) s = .next (traceBufferError s) ∧ exec (.latchingRead a) s = .next (traceBufferError s))
    ∧ (fencedAt s o = true → exec (.rcRead a) s = .next (setF s BAR0_ERR 1) ∧ exec (.latchingRead a) s = .next (setF s BAR0_ERR 1))
    ∧ (fencedAt s o = false → sealedAt s o = true → let t := setF (addF s RIGHT_REFUSALS 1) BAR0_ERR 3
      exec (.rcRead a) s = .next t ∧ exec (.latchingRead a) s = .next t)

/-- REGISTER_WRITE: unmapped words, a plain register, a bit that clears by writing 1, reserved bits, a fenced stop, a locked field. -/
def Obligations.RegisterWrites : Prop :=
  ∀ (s : State) (a : Access) (v : BitVec 64), hostUp s = true →
    (barOffset a = none → exec (.registerWrite a v) s = .next (addF s UNMAPPED_ACCESS 1))
    ∧ (∀ o, barOffset a = some o → placeOf o = .unmapped → a.wide = false →
      exec (.registerWrite a v) s = .next (addF s UNMAPPED_ACCESS 1))
    ∧ (∀ t < 96, barOffset a = some (mpdBase t + 4) → a.wide = false →
      exec (.registerWrite a v) s = .next (setF s (TRUNK_ASYM t) v.toNat))
    ∧ (barOffset a = some evstatBase → a.wide = false → v.toNat % 2 ^ 32 = 1 →
      exec (.registerWrite a v) s = .next (setF s ROUTE_REFUSED 0))
    ∧ (barOffset a = some evstatBase → a.wide = false → v.toNat % 2 ^ 32 = 2 ^ 31 + 1 →
      exec (.registerWrite a v) s = .next (setF (addF s RSVD_WRITE 1) ROUTE_REFUSED 0))
    ∧ (∀ o, barOffset a = some o → a.wide = false → fencedAt s o = true → exec (.registerWrite a v) s = .next (setF s BAR0_ERR 1))
    ∧ (∀ r ≤ 16, barOffset a = some (crBase r + 8) → a.wide = false → flag s (CR_ENABLE r) = true →
      v.toNat % 2 ^ 32 / 4096 ≠ getF s (CR_SQ_BASE r) % 2 ^ 20 → v.toNat % 4096 = 0 →
      ∃ t, exec (.registerWrite a v) s = .next t ∧ flag t (CR_CFG_REFUSED r) = true ∧ { t with regs := s.regs } = s
        ∧ Safety.SameFields [fun _ => CR_CFG_REFUSED r] s t)

/-- EV_PEND_CLEAR and EV_ROUTE: a view clears its own partition's bits only (R491, R494), and a route stays within it (R492). -/
def Obligations.EventRegisters : Prop :=
  ∀ (s : State) (fn : BitVec 5) (w : BitVec 10) (v : BitVec 32), hostUp s = true → fn.toNat ≤ 16 →
    (∃ t, exec (.evPendClear fn false w v) s = .next t ∧ t.eng = s.eng ∧ t.ctl = s.ctl ∧ Safety.SameFields [evPend] s t
      ∧ ∀ e < 4096, getF t (evPend e) =
          if e / 32 = w.toNat ∧ bitOf v.toNat (e % 32) = true ∧ ¬ (1280 ≤ e ∧ e < 3328) ∧ seesSource s fn.toNat e = true then 0
          else getF s (evPend e))
    ∧ (∃ t, exec (.evPendClear fn true w v) s = .next t ∧ t.eng = s.eng ∧ t.ctl = s.ctl ∧ Safety.SameFields [queuePend] s t
      ∧ ∀ q < 32768, getF t (queuePend q) =
          if q / 32 = w.toNat ∧ bitOf v.toNat (q % 32) = true ∧ seesQueue s fn.toNat q = true then 0 else getF s (queuePend q))
    ∧ (∀ e : BitVec 12, foreignVector s e.toNat (v.toNat % 2048) = true →
      exec (.evRoute e v) s = .next (setF (countReserved s 0x1FFF v.toNat) ROUTE_REFUSED 1))
    ∧ (∀ e : BitVec 12, foreignVector s e.toNat (v.toNat % 2048) = false →
      ∃ t, exec (.evRoute e v) s = .next t ∧ getF t (EVR_VECTOR e.toNat) = v.toNat % 2048 ∧ getF t (EVR_EN e.toNat) = v.toNat / 2048 % 2
        ∧ getF t (EVR_PIN e.toNat) = v.toNat / 4096 % 2 ∧ { t with regs := s.regs } = s
        ∧ getF t RSVD_WRITE = getF (if v.toNat < 2 ^ 13 then s else addF s RSVD_WRITE 1) RSVD_WRITE
        ∧ Safety.SameFields [fun _ => EVR_VECTOR e.toNat, fun _ => EVR_EN e.toNat, fun _ => EVR_PIN e.toNat, fun _ => RSVD_WRITE] s t)

/-- The capture commands and the control bits of their register (R372, R373, R377, R393). -/
def Obligations.CaptureCommands : Prop :=
  ∀ s : State,
    (hostUp s = true → armRefusal s = rsOk →
      (atBoundary s = false → exec .acqCtrlArm s = .next { s with acq := { s.acq with arm := .next } })
      ∧ (atBoundary s = true → ∃ t, exec .acqCtrlArm s = .next t ∧ getF t ASTATE = 2 ∧ getF t RECORDS_WRITTEN = 0 ∧ getF t SSTATE = 0
        ∧ getF t ACQ_K = 0 ∧ flag t TRIGGERED = false ∧ t.acq.arm = .none ∧ t.acq.post = 0 ∧ t.eng = s.eng)
      ∧ (getF s CYCLE_NUM ≠ getF s ARM_CYCLE → exec .acqCtrlArmAt s
          = .next (setF { s with acq := { s.acq with arm := .atCycle } } ASTATE 1)))
    ∧ (hostUp s = true → armRefusal s ≠ rsOk → exec .acqCtrlArm s = .next (setF s ACQ_REFUSED 1)
      ∧ exec .acqCtrlArmAt s = .next (setF s ACQ_REFUSED 1))
    ∧ (hostUp s = true → exec .acqCtrlDisarm s = .next (setF { s with acq := { s.acq with arm := .none, force := false } } ASTATE 0))
    ∧ (hostUp s = true → getF s ASTATE = 2 → exec .acqCtrlForce s = .next { s with acq := { s.acq with force := true } })
    ∧ (getF s ASTATE = 2 → getF s ACQ_AUTO ≠ 0 → getF s ACQ_AUTO ≤ s.acq.cycles + 1 →
      exec .autoTrigger s = .next { s with acq := { s.acq with force := true } })
    ∧ (∀ (r : BitVec 5) (p : Packet), getF s ACQ_OWNER = r.toNat - 1 →
      let v := fieldAt p.params
      let a := countFetch s r.toNat
      (Safety.Fetched s r 0x0601 p 16 .plain → v 1 1 < 8 → v 2 6 = 0 → v 8 8 < 2 ^ 48 → armRefusal s = rsOk →
        (v 0 1 = 0 → atBoundary s = false →
          exec (.acqArm r p) s = .next (Safety.answered { a with acq := { a.acq with arm := .next } } r 0x0601 p 0 []))
        ∧ (v 0 1 = 1 → getF s CYCLE_NUM ≠ v 8 8 → exec (.acqArm r p) s
            = .next (Safety.answered (setF { setF a ARM_CYCLE (v 8 8) with acq := { a.acq with arm := .atCycle } } ASTATE 1) r 0x0601 p 0 []))
        ∧ (v 0 1 = 2 → exec (.acqArm r p) s
            = .next (Safety.answered (setF { a with acq := { a.acq with arm := .comparator (v 1 1) } } ASTATE 1) r 0x0601 p 0 [])))
      ∧ (Safety.Fetched s r 0x0602 p 0 .plain → exec (.acqDisarm r p) s = .next (Safety.answered (disarm a) r 0x0602 p 0 []))
      ∧ (Safety.Fetched s r 0x0603 p 0 .plain → getF s ASTATE = 2 →
        exec (.acqForce r p) s = .next (Safety.answered { a with acq := { a.acq with force := true } } r 0x0603 p 0 []))
      ∧ (Safety.Fetched s r 0x0604 p 0 .plain → exec (.acqStatus r p) s
          = .next (Safety.answered a r 0x0604 p 0 (leBytes 4 (wordValue (getF s) (capBase + 4) (capWord 4)) ++ leBytes 4 (getF s PRE_VALID)
            ++ leBytes 4 (getF s TRIG_INDEX) ++ leBytes 4 0 ++ leBytes 8 (getF s TRIG_CYCLE) ++ leBytes 8 (getF s RECORDS_WRITTEN))))
      ∧ (Safety.Fetched s r 0x0605 p 24 .plain → v 0 1 < 16 → v 1 3 = 0 → v 12 4 = 0 → v 4 4 + v 8 4 ≤ (mapEntries s (v 0 1)).length →
        let l := ((mapEntries s (v 0 1)).drop (v 4 4)).take (v 8 4)
        exec (.capMapRead r p) s = .next (Safety.answered (hostWriteList a (fnOfPart (r.toNat - 1)) (v 16 8) (l.flatMap (fun e => leBytes 8 e.raw.toNat)))
          r 0x0605 p 0 [])))

/-- TRC_ENABLE, TRC_DISABLE, TRACE_DRAIN_COMPLETE (R393), TRC_OVERFLOW (R388) and SYNC_POINT (R391). -/
def Obligations.TraceFunnel : Prop :=
  ∀ s : State,
    (∀ (r : BitVec 5) (p : Packet), getF s TRC_OWNER = r.toNat - 1 →
      let v := fieldAt p.params 0 4
      let a := countFetch s r.toNat
      let q := ringRequest r.toNat 0x0702 p
      (Safety.Fetched s r 0x0701 p 8 .plain → v < 2 ^ 20 → fieldAt p.params 4 4 = 0 → (r.toNat ≤ 1 ∨ v / 16 % 16 = getF s TRC_OWNER) →
        flag s TRC_EN = false →
        ∃ t, exec (.trcEnable r p) s = .next t ∧ flag t TRC_EN = true ∧ getF t TRC_SINK = v / 2 % 4 ∧ getF t TRC_OWNER = v / 16 % 16
          ∧ getF t TRC_SEQ_LEVEL = v / 256 % 4 ∧ getF t TRC_MULE_EN = v / 1024 % 16 ∧ getF t TRC_SYNC_PERIOD = v / 65536
          ∧ t.trc.fifo = s.trc.fifo ∧ t.trc.since = 0 ∧ t.eng = s.eng)
      ∧ (Safety.Fetched s r 0x0702 p 0 .plain → s.trc.drain = none → nextSource s = none →
        exec (.trcDisable r p) s = .next (Safety.answered (setF a TRC_EN 0) r 0x0702 p 0 []))
      ∧ (Safety.Fetched s r 0x0702 p 0 .plain → s.trc.drain = none → nextSource s ≠ none → Safety.RoomFor s q →
        exec (.trcDisable r p) s = .next (let b := setF (Safety.pended a q).1 TRC_EN 0
          { b with trc := { b.trc with drain := some s.ctl.nextCall } })))
    ∧ (∀ id, s.trc.drain = some id → ∃ t, exec .traceDrainComplete s = .next t ∧ t.trc.drain = none ∧ nextSource t = none ∧ t.eng = s.eng
      ∧ (∀ c, s.ctl.calls = [c] → c.id = id → t.ctl.calls = []))
    ∧ (∀ src, overflowSource s = some src → ∃ t, exec .trcOverflow s = .next t ∧ lostOf t src = 0 ∧ flag t TRC_OVERFLOW_BIT = true
      ∧ flag t (evPend 3351) = true ∧ t.trc.fifo = s.trc.fifo ∧ (∀ x, x ≠ src → lostOf t x = lostOf s x) ∧ t.eng = s.eng)
    ∧ (∀ n, syncEvery s = some n → flag s TRC_EN = true → n ≤ s.trc.since →
      ∃ t, exec .syncPoint s = .next t ∧ t.trc.since = 0 ∧ t.trc.fifo = s.trc.fifo ∧ t.eng = s.eng)

/-- SCRUB (R403), FABRIC_CLOCK_EDGE (R397, R406, R410), TARGET_PIN_INPUT, MUX_SWITCH_COMPLETE and MUX_FORCED (R406), TOUT_TRANSFER
(R407) and TIN_COMMIT (R408). -/
def Obligations.AdapterFabric : Prop :=
  ∀ s : State,
    (∀ c u : Bool, ∃ t, exec (.scrub c u) s = .next t ∧ t.taf = s.taf ∧ t.eng = s.eng
      ∧ (c = true → flag t TAF_CFG_CORR = true ∧ flag t (evPend 3353) = true)
      ∧ (u = true → flag t TAF_CFG_UNCORR = true ∧ flag t (evPend 3352) = true)
      ∧ flag t FAB_OE = (flag s FAB_OE && !(u && flag s OFF_ON_UNCORR)) ∧ (c = false → u = false → t = s))
    ∧ (∀ (edges : List (BitVec 4 × Bool)) (mhz : BitVec 16),
      let u := seeMhz s edges mhz.toNat
      let l := risingClocks u edges
      let m := moveClocks u edges
      ∃ t, exec (.fabricClockEdge edges mhz) s = .next t ∧ t.eng = s.eng ∧ t.taf.cfg = s.taf.cfg ∧ t.cyc = s.cyc
        ∧ (∀ k, mget t.taf.ff false k = if k ∈ usedCells s ∧ cellClock s k ∈ l then ffNext m m.free k else mget s.taf.ff false k)
        ∧ (∀ f < 64, fifoOn s f = true → fifoIn s f = false → rclkNo (f / 4) (bitsOf (fifoWord s f) 4 2) ∈ l →
          fifoWords t f = if sinkBit m m.free f 146 then (fifoWords s f).drop 1 else fifoWords s f)
        ∧ (∀ c ∈ l, c < 64 ∧ heldLow s c = false ∧ dividerOver u (c / 4) (dividerOf s c) = false
          ∧ (mget t.taf.phase 0 (rclkNo (c / 4) (dividerOf s c)) = 1))
        ∧ (flag s TAF_CONFIGURED = true → ∀ k < 64, dividerRuns u (k / 4) (k % 4) = true →
          sourceEdge edges (dividerSrc s (k / 4) (k % 4)) = some true →
          mget t.taf.phase 0 k = if dividerLen s (k / 4) (k % 4) ≤ mget s.taf.phase 0 k then 1 else mget s.taf.phase 0 k + 1)
        ∧ (flag s TAF_CONFIGURED = true → ∀ region < 16, ∀ k < 4, dividerOver u region k = true → flag t (CLK_OVER region) = true))
    ∧ (∀ (pin : BitVec 10) (v : Bool), pin.toNat < 768 → ∃ t, exec (.targetPinInput pin v) s = .next t
      ∧ (∀ k, mget t.taf.pins false k = if k = pin.toNat then v else mget s.taf.pins false k) ∧ { t with taf := s.taf } = s)
    ∧ (∀ (clk : BitVec 6) (m : MuxSwitch), switchOf s clk.toNat = some m → m.sel < 4 →
      (m.held = true → 2 ≤ m.falls → ∃ t, exec (.muxSwitchComplete clk) s = .next t ∧ switchOf t clk.toNat = none ∧ t.taf.ff = s.taf.ff
        ∧ ∀ k < 64, dividerOf t k = if k = clk.toNat then m.sel else dividerOf s k)
      ∧ (m.held = false ∨ m.falls < 2 → exec (.muxSwitchComplete clk) s = .next s)
      ∧ (∃ t, exec (.muxForced clk) s = .next t ∧ switchOf t clk.toNat = none ∧ flag t TAF_MUX_FORCED = true
        ∧ ∀ k < 64, dividerOf t k = if k = clk.toNat then m.sel else dividerOf s k))
    ∧ (s.taf.toggle = true → clockRuns s (tbClock s) = true → exec .toutTransfer s
        = .next { s with taf := { s.taf with out := s.taf.hold, cycLsb := s.taf.holdCyc, strobe := true, toggle := false } })
    ∧ (s.taf.flip = true → ∃ t, exec .tinCommit s = .next t ∧ readCopy t = (if s.taf.ptr then s.taf.copy0 else s.taf.copy1)
      ∧ t.taf.flip = false ∧ flag t TIN_READY = true ∧ t.eng = s.eng ∧ Safety.SameFields [fun _ => TIN_READY] s t)

/-- The fall-back blocks (R415, R417) and the adapter commands (R416). -/
def Obligations.AdapterCommands : Prop :=
  ∀ s : State,
    (∀ (k : BitVec 3) (b : Byte), k.toNat < 6 → hostUp s = true →
      ((fbTx s k.toNat).length < 16 → ∃ t, exec (.fallbackDataWrite k b) s = .next t ∧ fbTx t k.toNat = fbTx s k.toNat ++ [b]
        ∧ fbRx t k.toNat = fbRx s k.toNat ∧ getF t (FB_TX_LEVEL k.toNat) = (fbTx s k.toNat).length + 1
        ∧ (∀ j, j ≠ k.toNat → fbTx t j = fbTx s j ∧ fbRx t j = fbRx s j))
      ∧ (16 ≤ (fbTx s k.toNat).length → exec (.fallbackDataWrite k b) s = .next s))
    ∧ (∀ (k : BitVec 3) (b : Byte) (rest : List Byte), k.toNat < 6 → hostUp s = true → fbRx s k.toNat = b :: rest →
      ∃ t, exec (.fallbackDataRead k) s = .next t ∧ t.readData = b.toNat ∧ fbRx t k.toNat = rest ∧ fbTx t k.toNat = fbTx s k.toNat)
    ∧ (∀ k : BitVec 3, k.toNat < 6 → hostUp s = true → fbRx s k.toNat = [] →
      exec (.fallbackDataRead k) s = .next { s with free := s.free + 1, readData := (Config.freeValue 8 s.free).toNat })
    ∧ (∀ (k : BitVec 3) (b : Byte), k.toNat < 6 → flag s FB_EN = true → flag s (BANK_PGOOD 7) = true →
      flag s (FB_ENABLE k.toNat) = true →
      ((fbRx s k.toNat).length < 16 → ∃ t, exec (.fallbackRxByte k b false) s = .next t ∧ fbRx t k.toNat = fbRx s k.toNat ++ [b]
        ∧ fbTx t k.toNat = fbTx s k.toNat)
      ∧ (16 ≤ (fbRx s k.toNat).length → exec (.fallbackRxByte k b false) s = .next (addF s (FB_RX_DROP k.toNat) 1))
      ∧ (4 ≤ k.toNat → exec (.fallbackRxByte k b true) s = .next (setF s (FB_NAK k.toNat) 1)))
    ∧ (∀ (r : BitVec 5) (p : Packet),
      let v := fieldAt p.params
      let a := countFetch s r.toNat
      (Safety.Fetched s r 0x0D01 p 8 .plain → r.toNat ≤ 1 → (v 0 1 ≤ 1 ∨ v 0 1 = 255) → (v 1 1 ≤ 1 ∨ v 1 1 = 255) → v 2 6 = 0 →
        ∃ t, exec (.tafOutputs r p) s = .next t ∧ flag t FAB_OE = (if v 0 1 = 255 then flag s FAB_OE else v 0 1 == 1)
          ∧ flag t FB_OE = (if v 1 1 = 255 then flag s FB_OE else v 1 1 == 1) ∧ t.taf = s.taf ∧ t.eng = s.eng)
      ∧ (Safety.Fetched s r 0x0D02 p 0 .plain → exec (.tafStatus r p) s
          = .next (Safety.answered a r 0x0D02 p 0 (leBytes 4 (getF s TAF_CONFIGURED + getF s TIN_READY * 2 + getF s TAF_CFG_CORR * 4
            + getF s TAF_CFG_UNCORR * 8 + getF s TAF_MUX_FORCED * 16) ++ leBytes 4 (getF s TOUT_SKIP) ++ leBytes 4 (getF s TIN_REFUSED)
            ++ leBytes 4 0)))
      ∧ (Safety.Fetched s r 0x0D03 p 8 .plain → r.toNat ≤ 1 → v 0 1 < 16 → v 1 1 < 4 → v 2 1 < 4 → v 3 5 = 0 →
        switchOf s (v 0 1 * 4 + v 1 1) = none → Safety.RoomFor s (ringRequest r.toNat 0x0D03 p) →
        ∃ t, exec (.tafClksel r p) s = .next t ∧ switchOf t (v 0 1 * 4 + v 1 1) = some ⟨v 2 1, s.ctl.nextCall, false, 0⟩
          ∧ (callOf t s.ctl.nextCall).isSome = true ∧ (∀ k < 64, dividerOf t k = dividerOf s k))
      ∧ (Safety.Fetched s r 0x0D04 p 8 .plain → r.toNat ≤ 1 → v 0 1 < 16 → v 1 1 < 4 → v 2 1 < 16 → v 4 4 = 0 →
        dividerUsed s (v 0 1) (v 1 1) = false → ∃ t, exec (.tafClkcfg r p) s = .next t
          ∧ dividerWord t (v 0 1) (v 1 1) = v 2 1 + v 3 1 * 16
          ∧ (∀ region < 16, ∀ k < 4, (region ≠ v 0 1 ∨ k ≠ v 1 1) → dividerWord t region k = dividerWord s region k))
      ∧ (Safety.Fetched s r 0x0D05 p 8 .plain → r.toNat ≤ 1 → v 0 1 < 64 → v 1 7 = 0 → exec (.tafFifoStats r p) s
          = .next (Safety.answered a r 0x0D05 p 0 (leBytes 4 (fifoWords s (v 0 1)).length ++ leBytes 4 (getF s (FIFO_PUSH_REFUSED (v 0 1)))
            ++ leBytes 4 (getF s (FIFO_OVERFLOW (v 0 1))) ++ leBytes 4 (getF s (FIFO_WORDS (v 0 1)))))))

/-- The tile service agent (R33, R467 to R471): PEEK, DEPOSIT, FORCE, RELEASE, FORCE_LIST. -/
def Obligations.DebugAgents : Prop :=
  ∀ (s : State) (r : BitVec 5) (p : Packet),
    let v := fieldAt p.params
    let a := countFetch s r.toNat
    let q := ringRequest r.toNat
    (∀ (k : Nat) (err : ReadErrorKind), Safety.Fetched s r 0x0501 p 16 .target →
      abHalf a (q 0x0501 p) = some k → abRight rtObserve a (q 0x0501 p) (r.toNat - 1) = true → abOk a (q 0x0501 p) = true →
      tileFenced a (tileOfPc (pcOf k)) = false →
      (v 0 1 = 2 → exec (.peek r p err) s = .next (Safety.answered a r 0x0501 p 0
        (leBytes 8 (cycleNow s) ++ leBytes 32 (stateBits a (pcOf k) (halfB k) (v 8 8) (v 4 2)))))
      ∧ (v 0 1 = 3 → isFailure (foundError a (tileOfPc (pcOf k)) (physPort (halfB k) (v 1 1)) (v 8 8) err) = false →
        agentRefused a (tileOfPc (pcOf k)) (physPort (halfB k) (v 1 1)) (v 8 8) = false →
        exec (.peek r p err) s = .next (Safety.answered (noteCorrected a (tileOfPc (pcOf k)) (physPort (halfB k) (v 1 1)) (v 8 8)
            (foundError a (tileOfPc (pcOf k)) (physPort (halfB k) (v 1 1)) (v 8 8) err)) r 0x0501 p 0
          (leBytes 8 (cycleNow s) ++ leBytes 32 (readModel a (tileOfPc (pcOf k)) (physPort (halfB k) (v 1 1)) (v 8 8)))))
      ∧ (v 0 1 ≤ 1 → getF s SEQ_STATE ≠ 2 → exec (.peek r p err) s = .next (Safety.answered a r 0x0501 p 0
          (leBytes 8 (getF s CYCLE_NUM + if getF s SEQ_STATE = 3 ∨ getF s SEQ_STATE = 4 then 2 ^ 63 else 0)
            ++ leBytes 32 (peekBits a (getF s SEQ_STATE == 3 || getF s SEQ_STATE == 4) (pcOf k) (v 0 1 == 1) (peekSlots (q 0x0501 p) k)))))
      ∧ (v 0 1 ≤ 1 → getF s SEQ_STATE = 2 → Safety.RoomFor s (q 0x0501 p) → exec (.peek r p err) s
          = .next (let u := (Safety.pended a (q 0x0501 p)).1
            { u with ctl := { u.ctl with peeks := u.ctl.peeks ++
              [⟨s.ctl.nextCall, pcOf k, v 0 1 == 1, peekSlots (q 0x0501 p) k⟩] } })))
    ∧ (∀ (k : Nat) (err : ReadErrorKind), Safety.Fetched s r 0x0502 p 48 .target →
      abHalf a (q 0x0502 p) = some k → abRight rtForce a (q 0x0502 p) (r.toNat - 1) = true → abOk a (q 0x0502 p) = true →
      tileFenced a (tileOfPc (pcOf k)) = false →
      let t := tileOfPc (pcOf k)
      let port := physPort (halfB k) (v 1 1)
      (getF s SEQ_STATE = 2 → 2 ≤ v 0 1 → Safety.RoomFor s (q 0x0502 p) → ∃ u, exec (.deposit r p err) s = .next u
        ∧ mget u.cyc.held [] t = mget s.cyc.held [] t ++ [(s.ctl.nextCall, depositOf a (q 0x0502 p) k)] ∧ u.eng = s.eng ∧ u.hbm = s.hbm)
      ∧ (getF s SEQ_STATE ≠ 2 → v 0 1 = 2 → ∃ u, exec (.deposit r p err) s = .next u ∧ u.eng = { s.eng with cur := u.eng.cur }
        ∧ (∀ i < v 4 2, mget u.eng.cur false (stateKey s (pcOf k) (halfB k) (v 8 8 + i)) = bitOf (v 16 32) i)
        ∧ (∀ j, (∀ i < v 4 2, j ≠ stateKey s (pcOf k) (halfB k) (v 8 8 + i)) → mget u.eng.cur false j = mget s.eng.cur false j))
      ∧ (getF s SEQ_STATE ≠ 2 → v 0 1 = 3 → onDie s t port = true → 64 ≤ swidth s t port → exec (.deposit r p err) s
        = .next (Safety.answered (writeModel (clearRows a (rowsOf a t port (v 8 8))) t port (v 8 8) (v 16 32)) r 0x0502 p 0
            (leBytes 8 (getF s CYCLE_NUM)))))
    ∧ (∀ (cmd : Cmd) (c : Instr) (g : Group),
      (cmd, c, g) ∈ [(cmdForce, Instr.force r p, forceGroup a (q 0x0503 p)), (cmdRelease, Instr.release r p, releaseGroup a (q 0x0504 p))] →
      Safety.Fetched s r cmd.opcode p (8 + 4 * v 0 1) .target → 1 ≤ v 0 1 → v 0 1 ≤ 16 →
      cmd.right a (q cmd.opcode p) (r.toNat - 1) = true → cmd.params a (q cmd.opcode p) (r.toNat - 1) = true →
      cmd.ready a (q cmd.opcode p) (r.toNat - 1) = 0 →
      (getF s SEQ_STATE = 2 → Safety.RoomFor s (q cmd.opcode p) → ∃ t, exec c s = .next t ∧ t.eng = s.eng
        ∧ ∃ armed, t.ctl.groups = s.ctl.groups ++ [{ g with call := s.ctl.nextCall, armed := armed }])
      ∧ (getF s SEQ_STATE ≠ 2 → (g.words.map Prod.fst).Nodup → ∃ t, exec c s = .next t ∧ (∀ w ∈ g.words, mget t.eng.imem 0 w.1 = w.2)
        ∧ (∀ k, k ∉ g.words.map Prod.fst → mget t.eng.imem 0 k = mget s.eng.imem 0 k)
        ∧ t.eng = { s.eng with imem := t.eng.imem, imemErr := t.eng.imemErr }))
    ∧ (Safety.Fetched s r 0x0505 p 8 .target → holdsRight s (r.toNat - 1) (scPart (q 0x0505 p)) rtObserve = true → v 2 6 = 0 →
      let l := ((s.ctl.forced.filter (fun f => f.part == scPart (q 0x0505 p))).drop (v 0 2)).take 16
      exec (.forceList r p) s = .next (Safety.answered a r 0x0505 p 0 (leBytes 8 l.length ++ l.flatMap forcedBytes)))

/-- PART_TILE_SET and PART_REGION_SET (R419), SET_RIGHTS and RIGHTS_DRAIN (R439, R440). -/
def Obligations.PartitionCommands : Prop :=
  ∀ s : State,
    (∀ (r : BitVec 5) (p : Packet), r.toNat ≤ 1 → flag s RIGHTS_PENDING = false →
      let v := fieldAt p.params
      (Safety.Fetched s r 0x0B01 p 8 .plain → v 0 1 < 128 → v 1 1 < 16 → v 2 6 = 0 → hasImage s (getF s (TILE_PARTITION (v 0 1))) = false →
        hasImage s (v 1 1) = false → ∃ t, exec (.partTileSet r p) s = .next t
          ∧ (∀ k < 128, getF t (TILE_PARTITION k) = if k = v 0 1 then v 1 1 else getF s (TILE_PARTITION k))
          ∧ getF t RIGHTS_EPOCH = (getF s RIGHTS_EPOCH + 1) % 2 ^ 16 ∧ t.eng = s.eng)
      ∧ (Safety.Fetched s r 0x0B02 p 24 .plain → v 0 1 < 16 → v 1 1 < 4 → v 2 6 = 0 → regionOk s (v 0 1) (v 1 1) (v 8 8) (v 16 8) = true →
        hasImage s (v 0 1) = false → ∃ t, exec (.partRegionSet r p) s = .next t
          ∧ (∀ k < 16, ∀ st < 4, getF t (HBM_BASE k st) = if k = v 0 1 ∧ st = v 1 1 then v 8 8 else getF s (HBM_BASE k st))
          ∧ (∀ k < 16, ∀ st < 4, getF t (HBM_LINES k st) = if k = v 0 1 ∧ st = v 1 1 then v 16 8 else getF s (HBM_LINES k st))
          ∧ getF t RIGHTS_EPOCH = (getF s RIGHTS_EPOCH + 1) % 2 ^ 16 ∧ t.hbm = s.hbm)
      ∧ (Safety.Fetched s r 0x0B03 p 24 .plain → v 0 1 < 16 → v 1 7 = 0 → (∀ x < 16, v (8 + x) 1 < 64) →
        Safety.RoomFor s (ringRequest r.toNat 0x0B03 p) → s.ctl.nextCall ≠ 0 → ∃ t, exec (.setRights r p) s = .next t
          ∧ (∀ x < 16, getF t (RIGHTS x (v 0 1)) = v (8 + x) 1)
          ∧ (∀ x < 16, ∀ y < 16, y ≠ v 0 1 → getF t (RIGHTS x y) = getF s (RIGHTS x y))
          ∧ flag t RIGHTS_PENDING = true ∧ t.sec.rights = some (s.ctl.nextCall, openRequests s)
          ∧ (callOf t s.ctl.nextCall).isSome = true))
    ∧ (∀ call old, s.sec.rights = some (call, old) → ∃ t, exec .rightsDrain s = .next t ∧ t.sec.rights = none
      ∧ flag t RIGHTS_PENDING = false ∧ (∀ g ∈ t.ctl.groups, ¬ (g.call ∈ old ∧ g.call ∈ openRequests s))
      ∧ (∀ x ∈ t.ctl.peeks, ¬ (x.call ∈ old ∧ x.call ∈ openRequests s)) ∧ t.eng = s.eng)

/-- KEY_INSTALL, KEY_ERASE, SEAL_KEY_SET and DIK_GET (R428 to R430), REKEY and REKEY_LINE (R442 to R444), ALARM_CLEAR (R434). -/
def Obligations.KeyCommands : Prop :=
  ∀ s : State,
    (∀ (r : BitVec 5) (p : Packet),
      let v := fieldAt p.params
      let a := countFetch s r.toNat
      let k := v 0 1
      (Safety.Fetched s r 0x0B04 p (if v 1 1 = 1 then 168 else 40) .plain → r.toNat ≤ 1 → k < 32 → v 1 1 < 2 → v 2 1 < 16 → v 3 5 = 0 →
        slotUsed s k = false → ∃ t, exec (.keyInstall r p) s = .next t
          ∧ (v 1 1 = 0 → mget t.sec.root 0 k = BitVec.ofNat 256 (v 8 32) ∧ flag t (KS_VALID k) = true ∧ flag t (KS_WRAPPED k) = false
            ∧ getF t (KS_PARTITION k) = v 2 1)
          ∧ (v 1 1 = 1 → match unwrapKey (p.params.drop 8) with
            | some kr => mget t.sec.root 0 k = kr ∧ flag t (KS_VALID k) = true ∧ flag t (KS_WRAPPED k) = true
              ∧ getF t (KS_PARTITION k) = v 2 1
            | none => t.sec = s.sec ∧ flag t ALARM = true ∧ flag t (evPend 3354) = true)
          ∧ (∀ j, j ≠ k → mget t.sec.root 0 j = mget s.sec.root 0 j))
      ∧ (Safety.Fetched s r 0x0B05 p 8 .plain → r.toNat ≤ 1 → k < 32 → v 1 7 = 0 → slotUsed s k = false →
        ∃ t, exec (.keyErase r p) s = .next t ∧ flag t (KS_VALID k) = false ∧ getF t (KS_PARTITION k) = 0
          ∧ (∀ j, mget t.sec.root 0 j = if j = k then 0 else mget s.sec.root 0 j))
      ∧ (Safety.Fetched s r 0x0B06 p 104 .plain → r.toNat ≤ 1 → k < 16 → v 1 7 = 0 → hasImage s k = false →
        exec (.sealKeySet r p) s = .next (Safety.answered { a with sec := { a.sec with
          signKey := mset a.sec.signKey [] k (p.params.drop 8) } } r 0x0B06 p 0 []))
      ∧ (Safety.Fetched s r 0x0B0A p 0 .plain →
        exec (.dikGet r p) s = .next (Safety.answered a r 0x0B0A p 0 dikPub))
      ∧ (Safety.Fetched s r 0x0B07 p 8 .plain → (r.toNat ≤ 1 ∨ k = r.toNat - 1) → k < 16 → v 1 1 < 4 → v 3 5 = 0 →
        getF s (RK_STATE (v 1 1)) ≠ 1 → getF s (RK_STATE (v 1 1)) ≠ 3 → 0 < getF s (HBM_LINES k (v 1 1)) →
        getF s (HBM_BASE k (v 1 1)) + getF s (HBM_LINES k (v 1 1)) < 2 ^ 30 → Safety.RoomFor s (ringRequest r.toNat 0x0B07 p) →
        ∃ t, exec (.rekey r p) s = .next t ∧ getF t (RK_STATE (v 1 1)) = 1 ∧ getF t (RK_PARTITION (v 1 1)) = k
          ∧ getF t (RK_BOUNDARY (v 1 1)) = getF s (HBM_BASE k (v 1 1))
          ∧ getF t (RK_END (v 1 1)) = getF s (HBM_BASE k (v 1 1)) + getF s (HBM_LINES k (v 1 1))
          ∧ mget t.sec.gen 0 (k * 4 + v 1 1) = s.sec.nextGen ∧ mget t.sec.oldGen 0 (k * 4 + v 1 1) = mget s.sec.gen 0 (k * 4 + v 1 1)
          ∧ mget t.sec.rekeyCall 0 (v 1 1) = s.ctl.nextCall))
    ∧ (∀ stack : BitVec 2,
      let st := stack.toNat
      let part := getF s (RK_PARTITION st)
      let b := getF s (RK_BOUNDARY st)
      getF s (RK_STATE st) = 1 → b < getF s (RK_END st) →
      (inSnapArea s part st b = false → tagGood s part st b = true → b + 1 < getF s (RK_END st) →
        ∃ t, exec (.rekeyLine stack false) s = .next t ∧ getF t (RK_BOUNDARY st) = b + 1 ∧ getF t (RK_STATE st) = 1
          ∧ stampOf t st b = 2 * mget s.sec.gen 0 (part * 4 + st) ∧ (∀ l, l ≠ b → stampOf t st l = stampOf s st l) ∧ t.hbm = s.hbm)
      ∧ (inSnapArea s part st b = false → tagGood s part st b = true → b + 1 = getF s (RK_END st) →
        ∃ t, exec (.rekeyLine stack false) s = .next t ∧ getF t (RK_STATE st) = 2 ∧ mget t.sec.oldGen 0 (part * 4 + st) = 0
          ∧ stampOf t st b = 2 * mget s.sec.gen 0 (part * 4 + st))
      ∧ (inSnapArea s part st b = false → ∃ t, exec (.rekeyLine stack true) s = .next t ∧ getF t (RK_STATE st) = 3
          ∧ getF t (RK_BOUNDARY st) = b ∧ flag t ALARM = true ∧ flag t (evPend 3354) = true ∧ t.sec.stamps = s.sec.stamps))
    ∧ (hostUp s = true → ∃ t, exec .alarmClear s = .next t ∧ flag t ALARM = false ∧ getF t ALARM_CAUSE = 0 ∧ getF t ALARM_LINE = 0
      ∧ { t with regs := s.regs } = s ∧ Safety.SameFields [fun _ => ALARM, fun _ => ALARM_CAUSE, fun _ => ALARM_CLASS,
        fun _ => ALARM_PARTITION, fun _ => ALARM_STACK, fun _ => ALARM_CYCLE, fun _ => ALARM_LINE] s t)

/-- SNAP_EXPORT, SNAP_EXPORT_COMPLETE, SNAP_IMPORT and SNAP_IMPORT_COMPLETE (R445, R446). -/
def Obligations.SnapshotCopies : Prop :=
  ∀ s : State,
    (∀ (r : BitVec 5) (p : Packet),
      let v := fieldAt p.params
      let a := countFetch s r.toNat
      (r.toNat ≤ 1 ∨ v 0 1 = r.toNat - 1) → v 0 1 < 16 → v 1 1 < 4 → v 2 1 < 4 → v 3 5 = 0 →
      (Safety.Fetched s r 0x0B08 p 16 .plain → Safety.RoomFor s (ringRequest r.toNat 0x0B08 p) → exec (.snapExport r p) s
        = .next (let u := (Safety.pended a (ringRequest r.toNat 0x0B08 p)).1
          { u with sec := { u.sec with exports := u.sec.exports ++ [(s.ctl.nextCall, v 0 1, v 1 1, v 2 1, v 8 8)] } }))
      ∧ (Safety.Fetched s r 0x0B09 p 16 .plain → (getF s SEQ_STATE = 1 ∨ getF s SEQ_STATE = 3 ∨ getF s SEQ_STATE = 4) →
        Safety.RoomFor s (ringRequest r.toNat 0x0B09 p) → exec (.snapImport r p) s
        = .next (let u := (Safety.pended a (ringRequest r.toNat 0x0B09 p)).1
          { u with sec := { u.sec with imports := u.sec.imports ++ [(s.ctl.nextCall, v 0 1, v 1 1, v 2 1, v 8 8)] } })))
    ∧ (∀ call p slot st addr rest, s.sec.exports = (call, p, slot, st, addr) :: rest →
      let n := partLines s p slot st
      exec .snapExportComplete s = .next (finalReply (drawFree { hostWriteList s (callFn s call) addr (partBytes s p slot st) with
        sec := { s.sec with exports := rest } }) call 0 (leBytes 8 n)))
    ∧ (∀ call p slot st addr rest (copy : List Byte) (bad : Bool), s.sec.imports = (call, p, slot, st, addr) :: rest →
      slot < 4 → st < 4 →
      let x := snapAt s p slot
      (copy.length ≠ 72 * partLines s p slot st → exec (.snapImportComplete copy bad) s
        = .next (finalReply { s with sec := { s.sec with imports := rest } } call 0x0011 []))
      ∧ (copy.length = 72 * partLines s p slot st → (∃ k < 4, k ≠ st ∧ k ∉ x.imported) →
        ∃ t, exec (.snapImportComplete copy bad) s = .next t ∧ (snapAt t p slot).writing = true ∧ (snapAt t p slot).valid = false
          ∧ st ∈ (snapAt t p slot).imported ∧ mget t.sec.copies [] ((p * 4 + slot) * 4 + st) = copy ∧ t.sys.contents = s.sys.contents
          ∧ t.sec.imports = rest)
      ∧ (copy.length = 72 * partLines s p slot st → (∀ k < 4, k ≠ st → k ∈ x.imported) →
        ∃ t, exec (.snapImportComplete copy bad) s = .next t ∧ (snapAt t p slot).writing = false ∧ (snapAt t p slot).imported = []
          ∧ t.sec.imports = rest
          ∧ (let d := copyLine (if st = 0 then copy else mget s.sec.copies [] (copyKey p slot 0)) 0
            let good := rawGood s p 0 (partFirst s p slot 0) d
            ((bad = true ∨ good = false) → (snapAt t p slot).invalid = true ∧ (snapAt t p slot).valid = false ∧ flag t ALARM = true)
            ∧ (bad = false → good = true → (snapAt t p slot).valid = true ∧ (snapAt t p slot).invalid = false
              ∧ (mget t.sys.contents none slot).isSome = true))))

/-- The identity group (R464) and the power commands (R465, R506). -/
def Obligations.IdentityAndPowerCommands : Prop :=
  ∀ (s : State) (r : BitVec 5) (p : Packet),
    let v := fieldAt p.params
    let a := countFetch s r.toNat
    (Safety.Fetched s r 0x0101 p 0 .plain → exec (.idGet r p) s = .next (Safety.answered a r 0x0101 p 0
      (leBytes 1 (getF s DEV_GRADE) ++ leBytes 1 (getF s DEV_STEPPING) ++ leBytes 2 (getF s DEV_ID) ++ leBytes 1 (getF s FW_LEVEL)
        ++ leBytes 1 (getF s BOOT_BANK) ++ leBytes 1 (getF s SEQ_STATE) ++ leBytes 1 (getF s PWR_STATE) ++ leBytes 4 (getF s FW_VERSION)
        ++ leBytes 4 0 ++ leBytes 4 (getF s SERIAL_LO) ++ leBytes 4 (getF s SERIAL_HI))))
    ∧ (Safety.Fetched s r 0x0102 p 8 .plain → v 0 1 < 4 → v 1 7 = 0 → ∃ l : List Byte, exec (.clusterMapGet r p) s
        = .next (Safety.answered a r 0x0102 p 0 l) ∧ l.length = 64
        ∧ ∀ i < 64, ∀ j < 8, (l.getD i 0).getLsbD j = !mget s.eng.clusterOff false (v 0 1 * 512 + i * 8 + j))
    ∧ (Safety.Fetched s r 0x0103 p 0 .plain → r.toNat ≤ 1 → exec (.faultGet r p) s = .next (Safety.answered a r 0x0103 p 0
        (leBytes 2 (getF s FAULT_CODE) ++ leBytes 6 (getF s FAULT_CYCLE) ++ leBytes 8 (getF s FAULT_LOC) ++ leBytes 4 (getF s FAULT_OVERFLOW)
          ++ leBytes 4 0)))
    ∧ (Safety.Fetched s r 0x0104 p 32 .plain → r.toNat ≤ 1 → s.nv.commit = none → ∃ u, exec (.mgmtKeySet r p) s
        = .next (Safety.answered u r 0x0104 p 0 []) ∧ u.nv.mgmtKey = p.params ∧ u.nv.commit.isSome = true ∧ u.nv.words = s.nv.words
        ∧ (∀ i < 32, optByte u.nv.image (0x40 + i) = p.params.getD i 0) ∧ { u with nv := s.nv } = a)
    ∧ (Safety.Fetched s r 0x0105 p p.params.length .plain → r.toNat ≤ 1 → p.params.length ≤ 112 →
        exec (.echo r p) s = .next (Safety.answered a r 0x0105 p 0 p.params))
    ∧ (Safety.Fetched s r 0x0201 p 8 .plain → r.toNat ≤ 1 → v 1 7 = 0 → getF s SEQ_STATE = 0 →
        (v 0 1 = 1 → ∃ t, exec (.powerSet r p) s = .next t ∧ getF t PWR_STATE = 1 ∧ t.pw.boot = .standby ∧ t.ctl.calls = []
          ∧ t.eng = { Engine.reset with clusterOff := s.eng.clusterOff } ∧ t.hbm = [] ∧ t.time.ns = s.time.ns
          ∧ getF t FAULT_CODE = getF s FAULT_CODE ∧ getF t WDOG_PERIOD = getF s WDOG_PERIOD ∧ t.pw.wdogOn = s.pw.wdogOn
          ∧ t.host = (Safety.answered a r 0x0201 p 0 []).host)
        ∧ (v 0 1 = 2 → exec (.powerSet r p) s = .next (Safety.answered a r 0x0201 p 0 [])))
    ∧ (Safety.Fetched s r 0x0204 p 8 .plain → r.toNat ≤ 1 → 250 ≤ v 0 2 → v 0 2 ≤ (if getF s DEV_GRADE = 2 then 1000 else 1200) → v 2 6 = 0 →
        ∃ t, exec (.stepClockSet r p) s = .next t ∧ getF t STEP_MHZ_REQ = v 0 2 ∧ getF t STEP_MHZ_NOW = getF s STEP_MHZ_NOW ∧ t.eng = s.eng)
    ∧ (Safety.Fetched s r 0x0205 p 0 .plain → exec (.powerStatus r p) s = .next (Safety.answered { a with free := s.free + 1 } r 0x0205 p 0
        ((List.range 5).flatMap (fun k => leBytes 2 (getF s (TJ k))) ++ leBytes 2 (Config.freeValue 16 s.free).toNat
          ++ leBytes 2 (getF s STEP_MHZ_NOW) ++ leBytes 1 (getF s THROTTLING) ++ leBytes 1 (getF s PWR_STATE) ++ leBytes 4 0)))

/-- RING_TIMEOUT, LATE_COMPLETION and QUARANTINE_EXPIRY (R480 to R482), the fences (R483), DEVICE_RESET and BLOCK_RESET_COMPLETE (R517,
R518), MEM_TEST, MEM_TEST_COMPLETE and ERR_INJECT (R473). -/
def Obligations.FencesAndTests : Prop :=
  ∀ s : State,
    (∀ (who : BitVec 2) (tag : BitVec 14) (gen : BitVec 2), quarGen s tag.toNat = none →
      ∃ t, exec (.ringTimeout who tag gen none) s = .next t ∧ quarGen t tag.toNat = some gen ∧ t.eng = s.eng
        ∧ (∀ k, k ≠ tag.toNat → quarGen t k = quarGen s k) ∧ getF t RING_TIMEOUTS = min (getF s RING_TIMEOUTS + 1) (2 ^ 32 - 1)
        ∧ (who = 1 → getF t BAR0_ERR = 2) ∧ (who ≠ 1 → getF t BAR0_ERR = getF s BAR0_ERR))
    ∧ (∀ (tag : BitVec 14) (gen : BitVec 2),
      (quarGen s tag.toNat = some gen → ∃ t, exec (.lateCompletion tag gen) s = .next t ∧ quarGen t tag.toNat = none
        ∧ (∀ k, k ≠ tag.toNat → quarGen t k = quarGen s k) ∧ flag t (evPend 3362) = true)
      ∧ (quarGen s tag.toNat ≠ some gen → exec (.lateCompletion tag gen) s = .next (addF s LATE_COMPLETION 1)))
    ∧ (∀ tag : BitVec 14, ∃ t, exec (.quarantineExpiry tag) s = .next t ∧ quarGen t tag.toNat = none
      ∧ (∀ k, k ≠ tag.toNat → quarGen t k = quarGen s k) ∧ t.eng = s.eng)
    ∧ (∀ (die : Bool) (index : BitVec 7) (tags : List (BitVec 14 × BitVec 2)), fencing s die index.toNat = true →
      (∃ t, exec (.fenceAck die index) s = .next t ∧ fencing t die index.toNat = false ∧ t.eng = s.eng
        ∧ flag t (if die then DIE_FENCED index.toNat else TILE_FENCED index.toNat) = true)
      ∧ (∃ t, exec (.fenceForced die index tags) s = .next t ∧ fencing t die index.toNat = false ∧ t.eng = s.eng
        ∧ flag t (if die then DIE_FENCED index.toNat else TILE_FENCED index.toNat) = true ∧ flag t (evPend 3363) = true
        ∧ getF t FENCE_FORCED = min (getF s FENCE_FORCED + 1) (2 ^ 32 - 1)))
    ∧ (∀ (r : BitVec 5) (p : Packet), r.toNat ≤ 1 →
      let v := fieldAt p.params
      let a := countFetch s r.toNat
      let q := ringRequest r.toNat
      let x := scBlock (q 0x0203 p) s.ctl.nextCall
      (Safety.Fetched s r 0x0203 p 8 .block → (scLevel (q 0x0203 p) = 1 ∨ scLevel (q 0x0203 p) = 2) → 1 ≤ v 0 4 → v 0 4 ≤ 1000000 → v 4 4 = 0 →
        fencing s x.die x.index = false → Safety.RoomFor s (q 0x0203 p) → exec (.fence r p) s = .next (let u := (Safety.pended a (q 0x0203 p)).1
          { u with ring := { u.ring with fences := u.ring.fences ++ [x] } }))
      ∧ (Safety.Fetched s r 0x0202 p 8 .block → v 0 8 = 0 → scLevel (q 0x0202 p) = 0 → exec (.deviceReset r p) s
          = .next (let u := Safety.answered a r 0x0202 p 0 []
            { u with pw := { u.pw with resetDue := true } }))
      ∧ (Safety.Fetched s r 0x0202 p 8 .block → v 0 8 = 0 → scLevel (q 0x0202 p) ≠ 0 → scopeLoaded s x.die x.index = false →
        Safety.RoomFor s (q 0x0202 p) → ∃ t, exec (.deviceReset r p) s = .next t ∧ x ∈ t.ring.resets ∧ flag t RST_BLOCK = true
          ∧ (∀ k ∈ blockTiles x.die x.index, flag t (TILE_IN_RESET k) = true ∧ getF t (TILE_PARTITION k) = getF s (TILE_PARTITION k)
            ∧ flag t (TILE_FENCED k) = flag s (TILE_FENCED k) ∧ flag t (TILE_LOADED k) = false))
      ∧ (Safety.Fetched s r 0x0C01 p 8 .block → scLevel (q 0x0C01 p) = 2 → v 0 1 < 2 → v 1 7 = 0 → hasImage s (getF s (TILE_PARTITION x.index)) = false →
        flag a (TILE_GATED x.index) = false → portClosed a false x.index = false → Safety.RoomFor s (q 0x0C01 p) → exec (.memTest r p) s = .next (let u := (Safety.pended a (q 0x0C01 p)).1
          { u with ring := { u.ring with tests := u.ring.tests ++ [(s.ctl.nextCall, x.index, v 0 1 == 1)] } }))
      ∧ (∀ k, Safety.Fetched s r 0x0C02 p 16 .target → flag s (SEALED (scPart (q 0x0C02 p))) = false → v 0 1 < 4 → v 4 4 = 0 →
        eiOk a (q 0x0C02 p) = true → findLc a (scPart (q 0x0C02 p)) (v 2 2) = some k →
        portClosed a false (tileOfPc (pcOf k)) = false →
        (v 0 1 < 2 → ∃ t, exec (.errInject r p) s = .next t ∧ t.eng = { s.eng with imemErr := t.eng.imemErr } ∧ ∀ j,
          mget t.eng.imemErr 0 j = if j = wordKey (foldedAt s (pcOf k)) (pcOf k) (halfB k) (v 1 1) (v 8 8) then v 0 1 % 2 + 1
            else mget s.eng.imemErr 0 j)
        ∧ (2 ≤ v 0 1 → ∃ t, exec (.errInject r p) s = .next t ∧ t.eng = { s.eng with memErr := t.eng.memErr } ∧ ∀ j,
          mget t.eng.memErr 0 j = if j = errKey s (tileOfPc (pcOf k)) (physPort (halfB k) (eiPort (q 0x0C02 p))) (eiAddr (q 0x0C02 p))
            then v 0 1 % 2 + 1 else mget s.eng.memErr 0 j)))
    ∧ (∀ (die : Bool) (index : BitVec 7), tasksOn s.ring.resets die index.toNat ≠ [] →
      ∃ t, exec (.blockResetComplete die index) s = .next t ∧ tasksOn t.ring.resets die index.toNat = []
        ∧ (die = true → flag t (DIE_FENCED index.toNat) = false)
        ∧ (∀ k ∈ blockTiles die index.toNat, flag s (TILE_GATED k) = false → flag t (TILE_IN_RESET k) = false ∧ flag t (TILE_FENCED k) = false))
    ∧ (∀ (tile : BitVec 7) (errors : BitVec 32) (first : BitVec 64) (x : Nat × Nat × Bool),
      s.ring.tests.find? (fun y => y.2.1 == tile.toNat) = some x →
      ∃ t, exec (.memTestComplete tile errors first) s = .next t ∧ t.ring.tests = s.ring.tests.erase x
        ∧ (∀ i < 3145728, rdByte t.eng.mem (tile.toNat * 3145728 + i) = 0)
        ∧ (∀ j, (j < tile.toNat * 3145728 ∨ tile.toNat * 3145728 + 3145728 ≤ j) → rdByte t.eng.mem j = rdByte s.eng.mem j)
        ∧ (x.2.2 = true → t.eng.imem = s.eng.imem))

/-- MISCOMPARE, MULE_SWITCHOVER_COMPLETE and MULE_SELFTEST_COMPLETE (R475, R476), the console (R495). -/
def Obligations.MulePairsAndConsole : Prop :=
  ∀ s : State,
    (∀ tags : List (BitVec 14 × BitVec 2), muleUp s = true → ∃ t, exec (.miscompare tags) s = .next t
      ∧ getF t (pairField (flag s ACTIVE_PAIR)) = 2 ∧ flag t ACTIVE_PAIR = flag s ACTIVE_PAIR
      ∧ flag t SWITCHING = (getF s (pairField (!flag s ACTIVE_PAIR)) == 0) ∧ muleUp t = false
      ∧ (∀ x ∈ tags, (quarGen t x.1.toNat).isSome = true) ∧ t.ctl.calls = s.ctl.calls ∧ t.eng = s.eng)
    ∧ (∀ us : BitVec 32, flag s SWITCHING = true → ∃ t, exec (.muleSwitchoverComplete us) s = .next t
      ∧ flag t ACTIVE_PAIR = !flag s ACTIVE_PAIR ∧ getF t (pairField (!flag s ACTIVE_PAIR)) = 1 ∧ flag t SWITCHING = false
      ∧ muleUp t = hubClock s ∧ getF t LAST_SWITCH_US = us.toNat ∧ getF t MULE_SWITCH_COUNT = min (getF s MULE_SWITCH_COUNT + 1) (2 ^ 32 - 1)
      ∧ flag t (evPend 3361) = true ∧ t.ctl.calls = s.ctl.calls ∧ t.eng = s.eng)
    ∧ (∀ (pass b : Bool), testedPair s = some b → s.pw.boot = .up →
      exec (.muleSelftestComplete pass) s = .next (setF s (pairField b) (if pass then 0 else 3)))
    ∧ (∀ (c : Byte) (read : BitVec 7), uartUp s = true →
      let l := s.ring.uart.drop read.toNat
      (l.length < 64 → exec (.uartCharacter c true read) s = .next { s with ring := { s.ring with uart := l ++ [c] } })
      ∧ (64 ≤ l.length → exec (.uartCharacter c true read) s = .next (addF { s with ring := { s.ring with uart := l } } UART_OVERRUN 1))
      ∧ exec (.uartCharacter c false read) s = .next (addF { s with ring := { s.ring with uart := l } } FRAME_ERR 1)
      ∧ exec .uartBreak s = .next (addF s UART_BREAKS 1))

/-- The run group of commands: RUN, STOP, RUN_STATUS and SEQ_SET (R142, R146, R466). -/
def Obligations.RunCommands : Prop :=
  ∀ (s : State) (r : BitVec 5) (p : Packet),
    let v := fieldAt p.params
    let a := countFetch s r.toNat
    let q := ringRequest r.toNat 0x0402 p
    (Safety.Fetched s r 0x0401 p 8 .plain → r.toNat ≤ 1 → v 4 4 = 0 → getF s SEQ_STATE = 1 → getF s CYCLE_NUM < 2 ^ 48 - 1 → haltBlocks s = false →
      (trunkMissing s = false → ∃ t, exec (.run r p) s = .next t ∧ getF t SEQ_STATE = 2 ∧ getF t RUN_COUNT = v 0 4 ∧ t.cyc.stopReq = false
        ∧ t.time.haltLatch = false ∧ getF t CYCLE_NUM = getF s CYCLE_NUM ∧ t.eng = s.eng)
      ∧ (trunkMissing s = true → exec (.run r p) s = .next (Safety.answered a r 0x0401 p 0x0060 [])))
    ∧ (Safety.Fetched s r 0x0402 p 0 .plain → r.toNat ≤ 1 →
      (getF s SEQ_STATE = 2 → Safety.RoomFor s q → exec (.stop r p) s = .next (let u := (Safety.pended a q).1
        { u with cyc := { u.cyc with stopReq := true } }))
      ∧ (getF s SEQ_STATE ≠ 2 → exec (.stop r p) s = .next (Safety.answered a r 0x0402 p 0 (leBytes 8 (getF s CYCLE_NUM)))))
    ∧ (Safety.Fetched s r 0x0403 p 0 .plain → exec (.runStatus r p) s = .next (Safety.answered a r 0x0403 p 0
      (leBytes 4 (wordAtOffset a 0x2004) ++ leBytes 4 (getF s LAST_PERIOD) ++ leBytes 8 (getF s CYCLE_NUM) ++ leBytes 4 (getF s OVERRUN_COUNT)
        ++ leBytes 4 0)))
    ∧ (Safety.Fetched s r 0x0404 p 32 .plain → r.toNat ≤ 1 → (v 0 1 ≤ 1 ∨ v 0 1 = 255) → v 2 2 = 0 → v 8 8 < 2 ^ 48 → v 16 4 < 1000000000 → v 26 6 = 0 →
      ∃ t, exec (.seqSet r p) s = .next t ∧ flag t SEQ_MODE = (if v 0 1 = 255 then flag s SEQ_MODE else v 0 1 == 1)
        ∧ getF t SKEW_LIMIT = (if v 1 1 = 0 then getF s SKEW_LIMIT else v 1 1)
        ∧ getF t NOPROGRESS_LIMIT = (if v 4 4 = 0 then 0 else max (v 4 4) 1024) ∧ getF t PACE_T0_SEC = v 8 8 ∧ getF t PACE_T0_NS = v 16 4
        ∧ getF t PACE_PERIOD_NS = v 20 4 ∧ getF t PACE_PERIOD_FRAC = v 24 2 ∧ t.eng = s.eng ∧ getF t SEQ_STATE = getF s SEQ_STATE)

/-- RESET_N, RESET_RELEASE, DEVICE_RESET_BEGIN, RAIL_GOOD, RAIL_LOSS, STRAP_LATCH, BOOT_COPY and BRING_UP_COMPLETE (R502 to R515). -/
def Obligations.ResetsAndRails : Prop :=
  ∀ s : State,
    let IsReset := fun (t : State) => t.pw.boot = .reset ∧ getF t PWR_STATE = 1 ∧ getF t SEQ_STATE = 0 ∧ t.hbm = [] ∧ t.ctl.calls = []
      ∧ t.eng = { Engine.reset with clusterOff := s.eng.clusterOff } ∧ getF t FAULT_CODE = getF s FAULT_CODE
      ∧ getF t RST_POR = getF s RST_POR ∧ t.time.ns = s.time.ns ∧ t.host = s.host
    (∀ ns : BitVec 32,
      (ns.toNat * 10 < 9 * filterNs s → exec (.resetN ns) s = .next s)
      ∧ (11 * filterNs s < ns.toNat * 10 → s.pw.boot = .up → ∃ t, exec (.resetN ns) s = .next t ∧ IsReset t ∧ flag t RST_PIN = true
        ∧ flag t RST_CMD = flag s RST_CMD)
      ∧ (11 * filterNs s < ns.toNat * 10 → s.pw.boot = .optionLoad → flag s STRAP_RESTART = false →
        exec (.resetN ns) s = .next { s with pw := { s.pw with deferred := s.pw.deferred ||| 2 } }))
    ∧ (s.pw.resetDue = true → s.pw.boot = .up → ∃ t, exec .deviceResetBegin s = .next t ∧ IsReset t ∧ flag t RST_CMD = true
      ∧ t.pw.resetDue = false)
    ∧ (s.pw.boot = .reset → (s.pw.railHeld = false ∨ railsIdle s = true) →
      exec .resetRelease s = .next { s with pw := { s.pw with boot := .steps, railHeld := false } })
    ∧ (s.pw.boot = .reset → s.pw.railHeld = true → railsIdle s = false → exec .resetRelease s = .next s)
    ∧ (∀ (rail : BitVec 5) (volt : BitVec 2),
      let k := rail.toNat
      (k < 14 → ∃ t, exec (.railGood rail volt) s = .next t ∧ (∀ j < 23, railGood t j = if j = k then true else railGood s j)
        ∧ { t with regs := s.regs } = s ∧ Safety.SameFields [fun _ => RAIL_PGOOD] s t)
      ∧ (14 ≤ k → k < 22 → ∃ t, exec (.railGood rail volt) s = .next t ∧ getF t (BANK_V (k - 14)) = volt.toNat
        ∧ flag t (BANK_PGOOD (k - 14)) = (volt != 0) ∧ railGood t k = (volt != 0))
      ∧ (k = 22 → s.pw.boot = .off → ∃ t, exec (.railGood rail volt) s = .next t ∧ t.pw.boot = .hold ∧ flag t RST_POR = true ∧ railGood t 22 = true)
      ∧ (k < 14 → s.pw.boot = .up → 2 ≤ getF s PWR_STATE → ∃ t, exec (.railLoss rail) s = .next t ∧ IsReset t ∧ flag t RST_RAIL = true
        ∧ t.pw.railHeld = true ∧ railGood t k = false ∧ bitOf (getF t RAIL_LOST) k = true)
      ∧ (14 ≤ k → k < 22 → ∃ t, exec (.railLoss rail) s = .next t ∧ flag t (BANK_PGOOD (k - 14)) = false ∧ railGood t k = false
        ∧ bitOf (getF t RAIL_LOST) k = true ∧ t.eng = s.eng)
      ∧ (k = 22 → ∃ t, exec (.railLoss rail) s = .next t ∧ t.pw.boot = .off ∧ getF t PWR_STATE = 0 ∧ getF t FAULT_CODE = 0 ∧ t.hbm = []
        ∧ t.eng = { Engine.reset with clusterOff := s.eng.clusterOff }))
    ∧ (∀ cfg : BitVec 3, s.pw.boot = .hold → ∃ t, exec (.strapLatch cfg) s = .next t ∧ t.pw.boot = .steps ∧ getF t STRAP_FILTER = cfg.toNat % 4
      ∧ getF t STRAP_RESTART = cfg.toNat / 4 ∧ getF t PWR_STATE = 1)
    ∧ (∀ (a b : Bool) (l : List Byte), hubClock s = true →
      (s.pw.boot = .steps → railGood s 8 = true → exec (.bootCopy 0 a b l) s = .next { s with pw := { s.pw with boot := .optionLoad } })
      ∧ (s.pw.boot = .optionLoad → s.pw.deferred = 0 → ∃ t, exec (.bootCopy 1 a b l) s = .next t ∧ getF t PAIR_A = (if a then 1 else 3)
        ∧ getF t PAIR_B = (if b then if a then 0 else 1 else 3)
        ∧ match bootBank s with
          | none => t.pw.boot = .recovery
          | some k => t.pw.boot = .started ∧ t.pw.wdogOn = true ∧ flag t BOOT_BANK = k ∧ flag t OPT_DEFAULT = !s.nv.good)
      ∧ (s.pw.boot = .optionLoad → s.pw.deferred = 2 → ∃ t, exec (.bootCopy 1 a b l) s = .next t ∧ t.pw.boot = .reset ∧ flag t RST_PIN = true)
      ∧ (s.pw.boot = .started → railsIdle s = true → ∃ t, exec (.bootCopy 2 a b l) s = .next t ∧ t.pw.boot = .copied
        ∧ (personalityItems s l = none → flag t TAF_DEFAULT_FAIL = true ∧ flag t CFG_ERR = true ∧ t.taf.cfg = s.taf.cfg)
        ∧ (∀ x, personalityItems s l = some x → flag t TAF_CONFIGURED = true ∧ flag t FAB_OE = true
          ∧ t.taf.cfg = fabricConfig (wrList s.sp fabricBank (fabricPayload (rdByte s.nv.personality) x)) x fabricBank [])))
    ∧ (s.pw.boot = .copied → railsIdle s = true → hubClock s = true →
      (flag s BOOT_STATE = true → ∃ t, exec .bringUpComplete s = .next t ∧ t.pw.boot = .up ∧ getF t PWR_STATE = 2 ∧ flag t (evPend 3366) = true)
      ∧ (flag s BOOT_STATE = false → ∃ t, exec .bringUpComplete s = .next t ∧ t.pw.boot = .standby ∧ getF t PWR_STATE = 1))

/-- The watchdog (R478, R516), the thermal throttle and trip (R519, R520), PERST_N (R510), reference clocks (R531), AVS (R505), the TAP
(R527). -/
def Obligations.WatchdogAndClocks : Prop :=
  ∀ s : State,
    (wdogRuns s = true → muleUp s = true → ∃ t, exec .wdogKick s = .next t ∧ getF t WDOG_LEFT = getF s WDOG_PERIOD ∧ t.pw.wdogWarned = false
      ∧ t.eng = s.eng)
    ∧ (wdogRuns s = true → s.pw.wdogWarned = false → ∃ t, exec .wdogWarn s = .next t ∧ t.pw.wdogWarned = true ∧ flag t (evPend 3364) = true)
    ∧ (wdogRuns s = true → s.pw.wdogWarned = false → exec .watchdog s = .next s)
    ∧ (wdogRuns s = true → s.pw.wdogWarned = true → getF s FAULT_CODE = 0 → ∃ t, exec .watchdog s = .next t ∧ getF t FAULT_CODE = 0x0603
      ∧ getF t SEQ_STATE = 3 ∧ stepClock t = false ∧ flag t IN_COMMIT = false ∧ t.eng.cur = s.eng.cur)
    ∧ (s.pw.wdogExpired = true → s.pw.boot = .up → ∃ t, exec .watchdogReset s = .next t ∧ t.pw.boot = .reset ∧ flag t RST_WDOG = true
      ∧ t.pw.wdogExpired = false ∧ getF t FAULT_CODE = getF s FAULT_CODE)
    ∧ (∀ t0 t1 t2 t3 t4 : BitVec 16, s.pw.boot = .up →
      let h := hottest [t0, t1, t2, t3, t4]
      ∃ t, exec (.thermalSample t0 t1 t2 t3 t4) s = .next t ∧ getF t (TJ 0) = t0.toNat ∧ getF t (TJ 4) = t4.toNat
        ∧ (1150 ≤ h → t.pw.boot = .tripped ∧ t.hbm = [] ∧ getF t SEQ_STATE = 0)
        ∧ (h < 1150 → t.pw.boot = .up ∧ t.eng = s.eng)
        ∧ (h < 1150 → (getF s T_THROT * 10 : Nat) ≤ h → flag s THROTTLING = false →
          flag t THROTTLING = true ∧ flag t (evPend 3365) = true ∧ getF t LIMIT_MHZ = max 250 (getF s STEP_MHZ_NOW - 50))
        ∧ (h < (getF s T_THROT * 10 : Nat) → h < 1150 → flag t THROTTLING = flag s THROTTLING ∧ getF t LIMIT_MHZ = getF s LIMIT_MHZ))
    ∧ (flag s THROTTLING = true → s.pw.hot = true → ∃ t, exec .throttleStepDown s = .next t
      ∧ getF t LIMIT_MHZ = max 250 (getF s LIMIT_MHZ - 50) ∧ t.pw.hot = false ∧ flag t THROTTLING = true)
    ∧ (flag s THROTTLING = true → s.pw.cool = true → getF s LIMIT_MHZ ≤ 1200 →
      (getF s LIMIT_MHZ + 50 < getF s STEP_MHZ_REQ → ∃ t, exec .throttleStepUp s = .next t ∧ getF t LIMIT_MHZ = getF s LIMIT_MHZ + 50
        ∧ flag t THROTTLING = true)
      ∧ (getF s STEP_MHZ_REQ ≤ getF s LIMIT_MHZ + 50 → ∃ t, exec .throttleStepUp s = .next t ∧ getF t LIMIT_MHZ = 1200
        ∧ flag t THROTTLING = false ∧ flag t (evPend 3365) = true))
    ∧ (∃ t, exec .perstN s = .next t ∧ t.pw.perst = true ∧ hostUp t = false ∧ (∀ r ≤ 16, flag t (CR_ENABLE r) = false) ∧ t.ctl.msixMask = []
      ∧ t.ctl.msixPba = [] ∧ t.eng = s.eng ∧ t.hbm = s.hbm)
    ∧ (railGood s 8 = true → exec .perstNRelease s = .next { s with pw := { s.pw with perst := false } })
    ∧ (mget s.pw.noClock false 0 = false → ∃ t, exec (.refclkLoss 0) s = .next t ∧ stepClock t = false ∧ muleUp t = false
      ∧ { t with pw := s.pw } = s ∧ exec (.refclkReturn 0) t = .next { t with pw := { t.pw with noClock := mset t.pw.noClock false 0 false } })
    ∧ (∀ die : BitVec 2, flag s (AVS_BUSY die.toNat) = true →
      ((∃ e < 4, e ≠ die.toNat ∧ flag s (AVS_BUSY e) = true) → ∃ t, exec (.avsWriteAck die) s = .next t ∧ flag t (AVS_BUSY die.toNat) = false
        ∧ getF t (AVS_SET_MV die.toNat) = (Config.avsMv die.toNat s.pw.avsGoal).toNat % 1024 ∧ getF t STEP_MHZ_NOW = getF s STEP_MHZ_NOW)
      ∧ (∃ t, exec (.avsTimeout die) s = .next t ∧ flag t (AVS_BUSY die.toNat) = false ∧ flag t AVS_ERR = true ∧ flag t (evPend 3366) = true
        ∧ getF t STEP_MHZ_NOW = getF s STEP_MHZ_NOW))
    ∧ (∀ ir : Byte, railGood s 13 = true → exec (.jtagInstruction ir) s = .next { s with pw := { s.pw with jtag := ir } })

/-- The scratchpad: SP_OWNER and OWNER_HANDOVER (R485), accesses (R484), violations (R486), the aliases (R487). -/
def Obligations.Scratchpad : Prop :=
  ∀ (s : State) (who : BitVec 2), spReaches s who = true →
    let violated := fun (t : State) (bank : Nat) (write : Bool) =>
      getF t SP_VIOLATION = min (getF s SP_VIOLATION + 1) (2 ^ 32 - 1) ∧ flag t SPV_VALID = true
        ∧ (flag s SPV_VALID = false → getF t SPV_BANK = bank ∧ getF t SPV_REQ = who.toNat ∧ flag t SPV_WRITE = write)
        ∧ Safety.SameFields [fun _ => SP_VIOLATION, fun _ => SPV_BANK, fun _ => SPV_REQ, fun _ => SPV_WRITE, fun _ => SPV_VALID] s t
        ∧ { t with regs := s.regs, readData := s.readData } = s
    (∀ (bank : BitVec 6) (owner : BitVec 2),
      let mine := getF s (SP_BANK_OWNER bank.toNat) = spRole who ∨ getF s (SP_BANK_OWNER bank.toNat) = 3
      (mine → getF s (SP_BANK_OWNER bank.toNat) ≠ owner.toNat → ∃ t, exec (.spOwner bank who owner) s = .next t
        ∧ getF t (SP_BANK_OWNER bank.toNat) = owner.toNat ∧ flag t (SP_PENDING bank.toNat) = true ∧ { t with regs := s.regs } = s
        ∧ Safety.SameFields [fun _ => SP_BANK_OWNER bank.toNat, fun _ => SP_PENDING bank.toNat] s t)
      ∧ (mine → getF s (SP_BANK_OWNER bank.toNat) = owner.toNat → exec (.spOwner bank who owner) s = .next s)
      ∧ (¬ mine → ∃ t, exec (.spOwner bank who owner) s = .next t ∧ violated t bank.toNat true)
      ∧ (flag s (SP_PENDING bank.toNat) = true → ∃ t, exec (.ownerHandover bank) s = .next t
        ∧ flag t (SP_PENDING bank.toNat) = false ∧ Safety.SameFields [fun _ => SP_PENDING bank.toNat] s t
        ∧ t.ring.spWait = s.ring.spWait.filter (fun e => e.2.bank != bank)
        ∧ ((∀ e ∈ s.ring.spWait, e.2.bank ≠ bank) → t.sp = s.sp)
        ∧ (∀ (k : SpKind) (x : SpAccess) (v : BitVec 64), s.ring.spWait = [(k, x)] → x.bank = bank → x.write = some v →
            t.sp = wrBytes s.sp (spAddr x) (spBytes x) (spNext k (spRead s x) v.toNat))))
    ∧ (∀ (a : SpAccess) (used : Bool), a.who = who →
      let owned := getF s (SP_BANK_OWNER a.bank.toNat) = spRole who
      let stored := fun (t : State) (b : SpAccess) (w : Nat) =>
        { t with sp := s.sp } = s ∧ (∀ j < spBytes b, rdByte t.sp (spAddr b + j) = BitVec.ofNat 8 (w / 2 ^ (8 * j)))
          ∧ (∀ i, i < spAddr b ∨ spAddr b + spBytes b ≤ i → rdByte t.sp i = rdByte s.sp i)
      (owned → flag s (SP_PENDING a.bank.toNat) = false →
        (∀ v : BitVec 64, a.write = some v → ∃ t, exec (.scratchpadAccess a .none used) s = .next t ∧ stored t a v.toNat)
        ∧ (a.write = none → who = 1 → exec (.scratchpadAccess a .none used) s = .next { s with readData := rdBytes s.sp (spAddr a) (spBytes a) })
        ∧ (a.write = none → who ≠ 1 → exec (.scratchpadAccess a .none used) s = .next s))
      ∧ (owned → flag s (SP_PENDING a.bank.toNat) = true →
        exec (.scratchpadAccess a .none used) s = .next { s with ring := { s.ring with spWait := s.ring.spWait ++ [(.plain, a)] } })
      ∧ (¬ owned → ∃ t, exec (.scratchpadAccess a .none used) s = .next t ∧ violated t a.bank.toNat a.write.isSome)
      ∧ (∀ v : BitVec 64, a.write = some v →
        let b := aliasBank s a
        let w := rdBytes s.sp (spAddr b) (spBytes b)
        let ownsIt := getF s (SP_BANK_OWNER b.bank.toNat) = spRole who
        (ownsIt → flag s (SP_PENDING b.bank.toNat) = false →
          (∃ t, exec (.setAliasWrite a) s = .next t ∧ stored t b (w ||| v.toNat))
          ∧ (∃ t x, exec (.clearAliasWrite a) s = .next t ∧ (∀ i < 64, bitOf x i = (bitOf w i && !v.getLsbD i)) ∧ stored t b x))
        ∧ (¬ ownsIt → (∃ t, exec (.setAliasWrite a) s = .next t ∧ violated t b.bank.toNat true)
          ∧ (∃ t, exec (.clearAliasWrite a) s = .next t ∧ violated t b.bank.toNat true))))

/-- SQ_PROD and CQ_CONS (R452), CR_EN (R453, R454), BLOCK_WRITE and BLOCK_READ (R461), COMMAND_DATAGRAM (R462). -/
def Obligations.Transports : Prop :=
  ∀ s : State,
    (∀ r : BitVec 5, r.toNat ≤ 16 → hostUp s = true →
      let n := r.toNat
      let since := fun (v : BitVec 32) (f : Field) => (v.toNat + 2 ^ 32 - getF s f) % 2 ^ 32
      (∀ v : BitVec 32, flag s (CR_ENABLE n) = true → since v (CR_SQ_FETCHED n) ≤ sqSlots s n →
        exec (.sqProd r v []) s = .next (setF s (CR_SQ_PROD n) v.toNat)
        ∧ (∀ (op : BitVec 16) (p : Packet), cmdOf op.toNat = none → canFetch (setF s (CR_SQ_PROD n) v.toNat) n p.flags.toNat = true →
          exec (.sqProd r v [(op, p)]) s
            = .next (Safety.answered (countFetch (setF s (CR_SQ_PROD n) v.toNat) n) r op.toNat p 0x10 [])))
      ∧ (∀ v : BitVec 32, flag s (CR_ENABLE n) = true → sqSlots s n < since v (CR_SQ_FETCHED n) →
        exec (.sqProd r v []) s = .next (setF s (CR_DB_ERR n) 1))
      ∧ (∀ v : BitVec 32, flag s (CR_ENABLE n) = false → exec (.sqProd r v []) s = .next s)
      ∧ (∀ v : BitVec 32, since v (CR_CQ_CONS n) ≤ (getF s (CR_CQ_PROD n) + 2 ^ 32 - getF s (CR_CQ_CONS n)) % 2 ^ 32 →
        (heldOf s n = [] → exec (.cqCons r v) s = .next (setF s (CR_CQ_CONS n) v.toNat))
        ∧ (∀ b e, heldOf s n = [(b, e)] → flag s (CR_ENABLE n) = true →
          (getF s (CR_CQ_PROD n) + 2 ^ 32 - v.toNat) % 2 ^ 32 < cqSlots s n →
          let a := getF s (CR_CQ_BASE n) * 4096 + getF s (CR_CQ_PROD n) % cqSlots s n * 128
          let wb := getF s (CR_WB_ADDR n) * 8
          (a + b.length ≤ wb ∨ wb + 8 ≤ a) → ∃ t, exec (.cqCons r v) s = .next t ∧ heldOf t n = [] ∧ flag t (CR_HELD n) = false
            ∧ getF t (CR_CQ_CONS n) = v.toNat ∧ getF t (CR_CQ_PROD n) = (getF s (CR_CQ_PROD n) + 1) % 2 ^ 32 ∧ rdList t.host a b.length = b))
      ∧ (∀ v : BitVec 32, (getF s (CR_CQ_PROD n) + 2 ^ 32 - getF s (CR_CQ_CONS n)) % 2 ^ 32 < since v (CR_CQ_CONS n) →
        exec (.cqCons r v) s = .next (setF s (CR_DB_ERR n) 1))
      ∧ (∀ en : Bool, flag s (CR_ENABLE n) = en → exec (.crEn r en) s = .next s)
      ∧ (flag s (CR_ENABLE n) = false → ∃ t, exec (.crEn r true) s = .next t ∧ flag t (CR_ENABLE n) = true ∧ getF t (CR_SQ_PROD n) = 0
        ∧ getF t (CR_SQ_FETCHED n) = 0 ∧ getF t (CR_CQ_PROD n) = 0 ∧ getF t (CR_CQ_CONS n) = 0 ∧ heldOf t n = [] ∧ flag t (CR_HELD n) = false
        ∧ t.ctl.calls = s.ctl.calls ∧ t.eng = s.eng
        ∧ Safety.SameFields [fun _ => CR_ENABLE n, fun _ => CR_SQ_PROD n, fun _ => CR_SQ_FETCHED n, fun _ => CR_CQ_PROD n,
            fun _ => CR_CQ_CONS n, fun _ => CR_HELD n] s t)
      ∧ (flag s (CR_ENABLE n) = true → ∃ t, exec (.crEn r false) s = .next t ∧ flag t (CR_ENABLE n) = false
        ∧ (∀ c ∈ t.ctl.calls, c.via ≠ .ring n) ∧ t.ctl.calls.map Call.id = s.ctl.calls.map Call.id ∧ t.eng = s.eng
        ∧ Safety.SameFields [fun _ => CR_ENABLE n] s t))
    ∧ (smbusUp s = true →
      (∀ (c : Byte) (bytes : List Byte), bytes ≠ [] → bytes.length ≤ 31 →
        (c.getLsbD 7 = true → s.ctl.smbusOut.length < 8 → c.getLsbD 6 = false →
          exec (.blockWrite (c :: bytes) true) s = .next { s with ctl := { s.ctl with smbusIn := some bytes } })
        ∧ (c.getLsbD 7 = true → s.ctl.smbusOut.length < 8 → c.getLsbD 6 = true →
          exec (.blockWrite (c :: bytes) true) s = .next (serveAny { s with ctl := { s.ctl with smbusIn := none } } (packetOf .smbus bytes)))
        ∧ (∀ got, c.getLsbD 7 = false → s.ctl.smbusIn = some got → c.getLsbD 6 = false →
          exec (.blockWrite (c :: bytes) true) s = .next { s with ctl := { s.ctl with smbusIn := some (got ++ bytes) } })
        ∧ (∀ got, c.getLsbD 7 = false → s.ctl.smbusIn = some got → c.getLsbD 6 = true →
          exec (.blockWrite (c :: bytes) true) s
            = .next (serveAny { s with ctl := { s.ctl with smbusIn := none } } (packetOf .smbus (got ++ bytes))))
        ∧ (c.getLsbD 7 = false → s.ctl.smbusIn = none → exec (.blockWrite (c :: bytes) true) s = .next s)
        ∧ (c.getLsbD 7 = true → 8 ≤ s.ctl.smbusOut.length → exec (.blockWrite (c :: bytes) true) s = .next s)
        ∧ exec (.blockWrite (c :: bytes) false) s = .next s)
      ∧ (s.ctl.smbusOut = [] → exec .blockRead s = .next { s with readData := 32 })
      ∧ (∀ b rest, s.ctl.smbusOut = b :: rest → ∃ t, exec .blockRead s = .next t ∧ t.eng = s.eng ∧ t.regs = s.regs
        ∧ t.readData % 256 = (if s.ctl.smbusPos = 0 then 128 else 0) + (if b.length ≤ s.ctl.smbusPos + 31 then 64 else 0)
        ∧ (∀ j < 31, t.readData / 256 ^ (j + 1) % 256 = ((b.drop s.ctl.smbusPos)[j]?.getD 0).toNat)
        ∧ (t.ctl.smbusOut, t.ctl.smbusPos) = if b.length ≤ s.ctl.smbusPos + 31 then (rest, 0) else (b :: rest, s.ctl.smbusPos + 31)))
    ∧ (∀ (packet mac : List Byte) (counter : Nat), commandPort s = true → counter < 2 ^ 64 → mac.length = 16 →
      let datagram := packet ++ leBytes 8 counter ++ mac
      let right := mac = ethMac s (leBytes 8 counter ++ packet)
      let new := ∀ c, s.ctl.eth.counter = some c → c < counter
      let q := packetOf .ethernet packet
      (right → new → exec (.commandDatagram datagram) s = .next (runDatagram s packet counter datagram)
        ∧ (cmdOf q.opcode = none →
          let reply := replyBytes q.opcode q.tag 0x10 []
          let t := runDatagram s packet counter datagram
          let d := reply ++ leBytes 8 counter ++ ethMac s (leBytes 8 counter ++ reply)
          t.ctl.eth.out = s.ctl.eth.out ++ [d] ∧ t.ctl.eth.counter = some counter ∧ t.ctl.eth.stored.getLast? = some (counter, datagram, d)
            ∧ t.eng = s.eng ∧ t.regs = s.regs))
      ∧ (¬ right → exec (.commandDatagram datagram) s
          = .next { s with ctl := { s.ctl with eth := { s.ctl.eth with authFail := s.ctl.eth.authFail + 1 } } })
      ∧ (right → ¬ new → (∀ e ∈ s.ctl.eth.stored, e.2.1 ≠ datagram) → exec (.commandDatagram datagram) s = .next s)
      ∧ (∀ c reply, right → ¬ new → s.ctl.eth.stored.find? (fun e => e.2.1 == datagram) = some (c, datagram, reply) →
          exec (.commandDatagram datagram) s = .next { s with ctl := { s.ctl with eth := { s.ctl.eth with out := s.ctl.eth.out ++ [reply] } } }))

/-- Commands of the rings: the checks common to all (R459, R460), and the reply in the completion ring (R451, R452, R457). -/
def Obligations.ChecksAndReplies : Prop :=
  ∀ (s : State),
    (∀ (c : Instr) (cmd : Cmd) (r : BitVec 5) (p : Packet), (∀ u, exec c u = fromRing cmd r p u) → canFetch s r.toNat p.flags.toNat = true →
      let u := countFetch s r.toNat
      let q := ringRequest r.toNat cmd.opcode p
      let part := r.toNat - 1
      let header := q.length = q.params.length ∧ q.length ≤ 240 ∧ cmd.length u q = true ∧ q.flags < 4 ∧ q.rsvd = 0
        ∧ scopeOk u cmd.scope q = true ∧ ∀ x ∈ callsOf u q.via, x.tag ≠ q.tag
      (q.version ≠ 1 → exec c s = .next (Safety.replied u q 0x10 []))
      ∧ (q.version = 1 → ¬ header → exec c s = .next (Safety.replied u q 0x11 []))
      ∧ (q.version = 1 → header → cmd.right u q part = false →
        exec c s = .next (Safety.replied (addF u RIGHT_REFUSALS 1) q 0x12 []))
      ∧ (q.version = 1 → header → cmd.right u q part = true → cmd.params u q part = false →
        exec c s = .next (Safety.replied u q 0x11 []))
      ∧ (refusal cmd u q ≠ 0 → ∃ t, exec c s = .next t
        ∧ { t with regs := s.regs, host := s.host, ctl := s.ctl, qs := s.qs } = s ∧ { t.qs with requester := s.qs.requester } = s.qs
        ∧ t.ctl.calls = s.ctl.calls ∧ t.ctl.groups = s.ctl.groups
        ∧ Safety.SameFields [fun _ => CR_SQ_FETCHED r.toNat, fun _ => CR_CQ_PROD r.toNat, fun _ => CR_REJECTS r.toNat,
            fun _ => CR_HELD r.toNat, fun _ => RIGHT_REFUSALS, evPend] s t))
    ∧ (∀ (q : Request) (r status : Nat) (payload : List Byte), q.via = .ring r → r ≤ 16 → flag s (CR_ENABLE r) = true →
      let t := Safety.replied s q status payload
      let k := getF s (CR_CQ_PROD r)
      let slot := getF s (CR_CQ_BASE r) * 4096 + k % cqSlots s r * 128
      let wb := getF s (CR_WB_ADDR r) * 8
      let room := (k + 2 ^ 32 - getF s (CR_CQ_CONS r)) % 2 ^ 32 < cqSlots s r
      (getF t (CR_REJECTS r) = if status = 0x10 ∨ status = 0x11 ∨ status = 0x12 then min (getF s (CR_REJECTS r) + 1) (2 ^ 32 - 1)
        else getF s (CR_REJECTS r))
      ∧ (heldOf s r = [] → room → payload.length ≤ 112 → status ≠ 1 → (slot + 16 + payload.length ≤ wb ∨ wb + 8 ≤ slot) →
        rdBytes t.host slot 2 = q.opcode % 2 ^ 16 ∧ rdBytes t.host (slot + 2) 2 = 0x100 ∧ rdBytes t.host (slot + 4) 2 = q.tag % 2 ^ 16
        ∧ rdBytes t.host (slot + 6) 2 = payload.length ∧ rdBytes t.host (slot + 8) 2 = status % 2 ^ 16 ∧ rdBytes t.host (slot + 10) 6 = 0
        ∧ rdList t.host (slot + 16) payload.length = payload
        ∧ rdBytes t.host wb 8 = getF s (CR_SQ_FETCHED r) + 2 ^ 32 * ((k + 1) % 2 ^ 32)
        ∧ (∀ a, (a < slot ∨ slot + 16 + payload.length ≤ a) → (a < wb ∨ wb + 8 ≤ a) → rdByte t.host a = rdByte s.host a)
        ∧ getF t (CR_CQ_PROD r) = (k + 1) % 2 ^ 32
        ∧ (bitOf q.flags 0 = true ∨ flag s (CR_EV_ALL r) = true → flag t (evPend (3367 + r)) = true))
      ∧ (heldOf s r ≠ [] ∨ ¬ room → heldOf t r = heldOf s r ++
            [(replyBytes q.opcode q.tag status payload, status != 1 && (bitOf q.flags 0 || flag s (CR_EV_ALL r)))]
          ∧ flag t (CR_HELD r) = true ∧ t.host = s.host ∧ getF t (CR_CQ_PROD r) = k))

/-- LDS (R59): the value is that of the current buffer, and only a commit replaces the buffer: no word of the cycle does. -/
def Obligations.LdsReadsCommittedState : Prop :=
  (∀ (s u : State) (w : Site), Safety.Issues s u w →
    let pc := w.pc.toNat
    let word := wordAt s pc w.half w.bp.toNat w.step.toNat
    opcOf word = 0x02 → ∃ t, exec (.lds w) s = .next t
      ∧ Safety.SlotWritten s t pc (dstOf word) (mget s.eng.cur false (stateKey s pc w.half (saddrOf word))))
  ∧ (∀ (s : State) (w : Site) (c : Instr), c ∈ [Instr.sts w, .nop w, .eval w, .evalm w, .lds w, .mpaAddress w, .mpaData w, .mpgRead w,
      .mpgWrite w, .mpr w, .msr w, .msw w, .mspPop w, .mspPush w, .chk w, .stopc w, .tpo w, .tpi w, .illegalOp w] →
    ∃ t, exec c s = .next t ∧ t.eng.cur = s.eng.cur)
  ∧ (∀ (s : State) (errs : List ReadError), s.cyc.held = [] → s.ctl.groups = [] → (commitActions s errs).eng.cur = s.eng.nxt)

/-- SADDR (R62). A held fault, the fetch check (R46) and SLOT_LIMIT (R55) come before it. -/
def Obligations.StateAddressRange : Prop :=
  ∀ (s u : State) (w : Site), stepClock s = true → admission s w = .issue u →
    let pc := w.pc.toNat
    let word := wordAt s pc w.half w.bp.toNat w.step.toNat
    let folded := foldedAt s pc
    let top := if folded then 0x7FFF else 0xFFFF
    (∀ (h1 h2 : Bool) (a b : Nat), a ≤ top → b ≤ top → stateKey s pc h1 a = stateKey s pc h2 b → a = b ∧ (folded = true → h1 = h2))
    ∧ (opcOf word = 0x02 ∨ opcOf word = 0x03 → saddrOf word ≤ top → 0x0105 ∉ (verdict u w).faults)
    ∧ (opcOf word = 0x02 ∨ opcOf word = 0x03 → top < saddrOf word → dblErr u pc w.half w.bp.toNat w.step.toNat = false →
      slotLimit u pc w.half word = false →
      ∃ t, exec (if opcOf word = 0x02 then .lds w else .sts w) s = .next t ∧ Safety.SlotsKept s t ∧ 0x0105 ∈ (verdict u w).faults
        ∧ (getF s FAULT_CODE = 0 → flag s IN_COMMIT = false → getF t FAULT_CODE = 0x0105
            ∧ getF t FAULT_LOC = locOf s pc w.half w.bp.toNat w.step.toNat % 2 ^ 64 ∧ flag t (evPend 3328) = true))
end

