-- ==== Sys2Proof/Laws/Crypto.lean ====
section
/-!
SUPPORT. Lengths of what the cryptographic functions give.
-/
namespace Sys2Proof.Crypto
open Sys2Proof

@[simp] theorem leBytes_length (n v : Nat) : (leBytes n v).length = n := by
  induction n generalizing v with
  | zero => rfl
  | succ n ih => simp [leBytes, ih]

@[simp] theorem beBytes_length (n v : Nat) : (beBytes n v).length = n := by simp [beBytes]

@[simp] theorem sha384_length (m : List Byte) : (sha384 m).length = 48 := by simp [sha384]

@[simp] theorem hmac_length (key m : List Byte) : (hmac key m).length = 48 := by simp [hmac]

@[simp] theorem gcmTag_length (key iv aad cipher : List Byte) : (gcmTag key iv aad cipher).length = 16 := by simp [gcmTag]

end Sys2Proof.Crypto
end

