-- ==== Sys2Proof/Laws/Map.lean ====
section
/-!
SUPPORT. Laws of the sparse tables and memories: what a read gives after a write, and that every operation keeps the canonical form.
-/
namespace Sys2Proof
variable {α : Type}

/-! ## Read after write -/

@[simp] theorem mget_nil (d : α) (k : Nat) : mget ([] : Map α) d k = d := rfl

theorem mget_cons (j : Nat) (v : α) (r : Map α) (d : α) (k : Nat) :
    mget ((j, v) :: r) d k = if j = k then v else mget r d k := rfl

@[simp] theorem mget_mdel_same (m : Map α) (d : α) (k : Nat) : mget (mdel m k) d k = d := by
  induction m with
  | nil => rfl
  | cons e r ih => obtain ⟨j, v⟩ := e; unfold mdel; split <;> simp_all [mget_cons]

theorem mget_mdel_ne (m : Map α) (d : α) {k x : Nat} (h : x ≠ k) : mget (mdel m k) d x = mget m d x := by
  induction m with
  | nil => rfl
  | cons e r ih =>
    obtain ⟨j, v⟩ := e
    unfold mdel
    split
    · next hj => subst hj; rw [mget_cons, if_neg (Ne.symm h), ih]
    · rw [mget_cons, mget_cons, ih]

theorem mget_mins_same (m : Map α) (d : α) (k : Nat) (v : α) :
    mget (mins (mdel m k) k v) d k = v := by
  induction m with
  | nil => simp [mdel, mins, mget]
  | cons e r ih =>
    obtain ⟨j, w⟩ := e
    unfold mdel
    split
    · exact ih
    · next hj =>
      unfold mins
      split
      · simp [mget_cons]
      · rw [mget_cons, if_neg hj, ih]

theorem mget_mins_ne (m : Map α) (d : α) {k x : Nat} (v : α) (h : x ≠ k) : mget (mins m k v) d x = mget m d x := by
  induction m with
  | nil => simp [mins, mget, Ne.symm h]
  | cons e r ih =>
    obtain ⟨j, w⟩ := e
    unfold mins
    split
    · rw [mget_cons, if_neg (Ne.symm h)]
    · rw [mget_cons, mget_cons, ih]

@[simp] theorem mget_mset_same [DecidableEq α] (m : Map α) (d : α) (k : Nat) (v : α) : mget (mset m d k v) d k = v := by
  unfold mset
  split
  · next h => simp [h]
  · exact mget_mins_same m d k v

theorem mget_mset_ne [DecidableEq α] (m : Map α) (d e : α) {k x : Nat} (v : α) (h : x ≠ k) :
    mget (mset m d k v) e x = mget m e x := by
  unfold mset
  split
  · exact mget_mdel_ne m e h
  · rw [mget_mins_ne _ _ _ h, mget_mdel_ne m e h]

theorem mget_mset [DecidableEq α] (m : Map α) (d : α) (k x : Nat) (v : α) :
    mget (mset m d k v) d x = if x = k then v else mget m d x := by
  by_cases h : x = k
  · subst h; simp
  · rw [if_neg h, mget_mset_ne m d d v h]

theorem mget_mdrop_kept (m : Map α) (p : Nat → Bool) (d : α) {k : Nat} (h : p k = false) : mget (mdrop m p) d k = mget m d k := by
  induction m with
  | nil => rfl
  | cons e r ih =>
    obtain ⟨j, v⟩ := e
    unfold mdrop at ih ⊢
    rw [List.filter_cons]
    split
    · rw [mget_cons, mget_cons, ih]
    · next hj =>
      have : j ≠ k := by rintro rfl; simp [h] at hj
      rw [mget_cons, if_neg this, ih]

theorem mget_mdrop_gone (m : Map α) (p : Nat → Bool) (d : α) {k : Nat} (h : p k = true) : mget (mdrop m p) d k = d := by
  induction m with
  | nil => rfl
  | cons e r ih =>
    obtain ⟨j, v⟩ := e
    unfold mdrop at ih ⊢
    rw [List.filter_cons]
    split
    · next hj =>
      have : j ≠ k := by rintro rfl; simp [h] at hj
      rw [mget_cons, if_neg this, ih]
    · exact ih

/-! ## Canonical form -/

/-- Every number of a table is at least `b`. -/
def Map.above (b : Nat) : Map α → Prop
  | [] => True
  | (j, _) :: r => b ≤ j ∧ Map.above b r

theorem Map.above_mono {b c : Nat} (h : b ≤ c) : (m : Map α) → Map.above c m → Map.above b m
  | [], _ => trivial
  | (_, _) :: r, ⟨h1, h2⟩ => ⟨Nat.le_trans h h1, Map.above_mono h r h2⟩

theorem Map.sorted_cons (j : Nat) (v : α) (r : Map α) : Map.sorted ((j, v) :: r) = true ↔ Map.above (j + 1) r ∧ Map.sorted r = true := by
  induction r generalizing j v with
  | nil => simp [Map.sorted, Map.above]
  | cons e r ih =>
    obtain ⟨k, w⟩ := e
    constructor
    · intro h
      simp only [Map.sorted, Bool.and_eq_true, decide_eq_true_eq] at h
      exact ⟨⟨h.1, Map.above_mono (by omega) r ((ih k w).1 h.2).1⟩, h.2⟩
    · intro h
      simp only [Map.sorted, Bool.and_eq_true, decide_eq_true_eq]
      exact ⟨h.1.1, h.2⟩

theorem Map.above_mdel {b : Nat} (k : Nat) : (m : Map α) → Map.above b m → Map.above b (mdel m k)
  | [], _ => trivial
  | (j, _) :: r, ⟨h1, h2⟩ => by
    unfold mdel
    split
    · exact Map.above_mdel k r h2
    · exact ⟨h1, Map.above_mdel k r h2⟩

theorem Map.above_mins {b k : Nat} (v : α) (hk : b ≤ k) : (m : Map α) → Map.above b m → Map.above b (mins m k v)
  | [], _ => ⟨hk, trivial⟩
  | (j, _) :: r, ⟨h1, h2⟩ => by
    unfold mins
    split
    · exact ⟨hk, h1, h2⟩
    · exact ⟨h1, Map.above_mins v hk r h2⟩

theorem Map.above_filter {b : Nat} (p : Nat × α → Bool) : (m : Map α) → Map.above b m → Map.above b (m.filter p)
  | [], _ => trivial
  | e :: r, ⟨h1, h2⟩ => by
    rw [List.filter_cons]
    split
    · exact ⟨h1, Map.above_filter p r h2⟩
    · exact Map.above_filter p r h2

theorem Map.sorted_mdel (m : Map α) (k : Nat) (h : Map.sorted m = true) : Map.sorted (mdel m k) = true := by
  induction m with
  | nil => rfl
  | cons e r ih =>
    obtain ⟨j, v⟩ := e
    rw [Map.sorted_cons] at h
    unfold mdel
    split
    · exact ih h.2
    · rw [Map.sorted_cons]; exact ⟨Map.above_mdel k r h.1, ih h.2⟩

theorem Map.sorted_mins_mdel (m : Map α) (k : Nat) (v : α) (h : Map.sorted m = true) : Map.sorted (mins (mdel m k) k v) = true := by
  induction m with
  | nil => rfl
  | cons e r ih =>
    obtain ⟨j, w⟩ := e
    rw [Map.sorted_cons] at h
    unfold mdel
    split
    · exact ih h.2
    · next hj =>
      unfold mins
      split
      · next hk =>
        rw [Map.sorted_cons, Map.sorted_cons]
        exact ⟨⟨hk, Map.above_mono (by omega) _ (Map.above_mdel k r h.1)⟩, Map.above_mdel k r h.1, Map.sorted_mdel r k h.2⟩
      · next hk =>
        rw [Map.sorted_cons]
        exact ⟨Map.above_mins v (by omega) _ (Map.above_mdel k r h.1), ih h.2⟩

theorem Map.sorted_filter (m : Map α) (p : Nat × α → Bool) (h : Map.sorted m = true) : Map.sorted (m.filter p) = true := by
  induction m with
  | nil => rfl
  | cons e r ih =>
    obtain ⟨j, v⟩ := e
    rw [Map.sorted_cons] at h
    rw [List.filter_cons]
    split
    · rw [Map.sorted_cons]; exact ⟨Map.above_filter p r h.1, ih h.2⟩
    · exact ih h.2

theorem Map.sorted_mset [DecidableEq α] (m : Map α) (d : α) (k : Nat) (v : α) (h : Map.sorted m = true) :
    Map.sorted (mset m d k v) = true := by
  unfold mset
  split
  · exact Map.sorted_mdel m k h
  · exact Map.sorted_mins_mdel m k v h

theorem Map.sorted_mdrop (m : Map α) (p : Nat → Bool) (h : Map.sorted m = true) : Map.sorted (mdrop m p) = true :=
  Map.sorted_filter m _ h

/-- No entry of a table has the value that an unlisted number has. -/
def Map.proper (d : α) : Map α → Prop
  | [] => True
  | (_, v) :: r => v ≠ d ∧ Map.proper d r

/-- The canonical form is the rising order together with no entry for an unlisted value. -/
theorem Map.wf_iff [DecidableEq α] (d : α) (m : Map α) : Map.wf d m = true ↔ Map.sorted m = true ∧ Map.proper d m := by
  induction m with
  | nil => simp [Map.wf, Map.sorted, Map.proper]
  | cons e r ih =>
    obtain ⟨j, v⟩ := e
    cases r with
    | nil => simp [Map.wf, Map.sorted, Map.proper]
    | cons e r =>
      obtain ⟨k, w⟩ := e
      simp only [Map.wf, Map.sorted, Bool.and_eq_true, decide_eq_true_eq, ih, Map.proper]
      constructor
      · rintro ⟨⟨a, b⟩, c, e, f⟩; exact ⟨⟨b, c⟩, a, e, f⟩
      · rintro ⟨⟨b, c⟩, a, e, f⟩; exact ⟨⟨a, b⟩, c, e, f⟩

theorem Map.proper_mdel (d : α) (k : Nat) : (m : Map α) → Map.proper d m → Map.proper d (mdel m k)
  | [], _ => trivial
  | (j, _) :: r, ⟨h1, h2⟩ => by
    unfold mdel
    split
    · exact Map.proper_mdel d k r h2
    · exact ⟨h1, Map.proper_mdel d k r h2⟩

theorem Map.proper_mins (d : α) (k : Nat) (v : α) (hv : v ≠ d) : (m : Map α) → Map.proper d m → Map.proper d (mins m k v)
  | [], _ => ⟨hv, trivial⟩
  | (j, _) :: r, ⟨h1, h2⟩ => by
    unfold mins
    split
    · exact ⟨hv, h1, h2⟩
    · exact ⟨h1, Map.proper_mins d k v hv r h2⟩

theorem Map.proper_filter (d : α) (p : Nat × α → Bool) : (m : Map α) → Map.proper d m → Map.proper d (m.filter p)
  | [], _ => trivial
  | (_, _) :: r, ⟨h1, h2⟩ => by
    rw [List.filter_cons]
    split
    · exact ⟨h1, Map.proper_filter d p r h2⟩
    · exact Map.proper_filter d p r h2

theorem Map.wf_mset [DecidableEq α] (m : Map α) (d : α) (k : Nat) (v : α) (h : Map.wf d m = true) : Map.wf d (mset m d k v) = true := by
  rw [Map.wf_iff] at h ⊢
  refine ⟨Map.sorted_mset m d k v h.1, ?_⟩
  unfold mset
  split
  · exact Map.proper_mdel d k m h.2
  · next hv => exact Map.proper_mins d k v hv _ (Map.proper_mdel d k m h.2)

theorem Map.wf_mdel [DecidableEq α] (m : Map α) (d : α) (k : Nat) (h : Map.wf d m = true) : Map.wf d (mdel m k) = true := by
  rw [Map.wf_iff] at h ⊢
  exact ⟨Map.sorted_mdel m k h.1, Map.proper_mdel d k m h.2⟩

theorem Map.wf_filter [DecidableEq α] (m : Map α) (d : α) (p : Nat × α → Bool) (h : Map.wf d m = true) : Map.wf d (m.filter p) = true := by
  rw [Map.wf_iff] at h ⊢
  exact ⟨Map.sorted_filter m p h.1, Map.proper_filter d p m h.2⟩

theorem Map.wf_mdrop [DecidableEq α] (m : Map α) (d : α) (p : Nat → Bool) (h : Map.wf d m = true) : Map.wf d (mdrop m p) = true :=
  Map.wf_filter m d _ h

theorem Map.wf_msetMany [DecidableEq α] (m : Map α) (d : α) (k : Nat) (l : List α) (h : Map.wf d m = true) :
    Map.wf d (msetMany m d k l) = true := by
  induction l generalizing m k with
  | nil => exact h
  | cons v r ih => exact ih _ _ (Map.wf_mset m d k v h)

theorem Map.wf_mnorm [DecidableEq α] (d : α) (m : Map α) : Map.wf d (mnorm d m) = true := by
  have gen : ∀ (l : Map α) (a : Map α), Map.wf d a = true → Map.wf d (l.foldl (fun a e => mset a d e.1 e.2) a) = true := by
    intro l
    induction l with
    | nil => intro a h; exact h
    | cons e r ih => intro a h; exact ih _ (Map.wf_mset a d e.1 e.2 h)
  exact gen m [] rfl

/-! ## Memories -/

@[simp] theorem rdByte_wrByte_same (m : Memory) (a : Nat) (b : Byte) : rdByte (wrByte m a b) a = b := mget_mset_same m 0 a b

theorem rdByte_wrByte_ne (m : Memory) {a x : Nat} (b : Byte) (h : x ≠ a) : rdByte (wrByte m a b) x = rdByte m x :=
  mget_mset_ne m 0 0 b h

theorem wf_wrByte (m : Memory) (a : Nat) (b : Byte) (h : Memory.wf m = true) : Memory.wf (wrByte m a b) = true :=
  Map.wf_mset m 0 a b h

theorem wf_wrBytes (m : Memory) (a n v : Nat) (h : Memory.wf m = true) : Memory.wf (wrBytes m a n v) = true := by
  induction n generalizing m a v with
  | zero => exact h
  | succ n ih => exact ih _ _ _ (wf_wrByte m a _ h)

theorem wf_wrList (m : Memory) (a : Nat) (l : List Byte) (h : Memory.wf m = true) : Memory.wf (wrList m a l) = true := by
  induction l generalizing m a with
  | nil => exact h
  | cons b r ih => exact ih _ _ (wf_wrByte m a b h)

theorem wf_wrBit (m : Memory) (i : Nat) (b : Bool) (h : Memory.wf m = true) : Memory.wf (wrBit m i b) = true := wf_wrByte m _ _ h

theorem wf_wrBits (m : Memory) (i n v : Nat) (h : Memory.wf m = true) : Memory.wf (wrBits m i n v) = true := by
  induction n generalizing m i v with
  | zero => exact h
  | succ n ih => exact ih _ _ _ (wf_wrBit m i _ h)

theorem wf_zeroBytes (m : Memory) (a n : Nat) (h : Memory.wf m = true) : Memory.wf (zeroBytes m a n) = true := Map.wf_mdrop m 0 _ h

/-- Bytes outside a written list keep their values. -/
theorem rdByte_wrList_out (m : Memory) (a : Nat) (l : List Byte) {x : Nat} (h : x < a ∨ a + l.length ≤ x) :
    rdByte (wrList m a l) x = rdByte m x := by
  induction l generalizing m a with
  | nil => rfl
  | cons b r ih =>
    simp only [List.length_cons] at h
    unfold wrList
    rw [ih _ _ (by omega), rdByte_wrByte_ne m b (by omega)]

/-- Bytes outside a written number keep their values. -/
theorem rdByte_wrBytes_out (m : Memory) (a n v : Nat) {x : Nat} (h : x < a ∨ a + n ≤ x) : rdByte (wrBytes m a n v) x = rdByte m x := by
  induction n generalizing m a v with
  | zero => rfl
  | succ n ih =>
    unfold wrBytes
    rw [ih _ _ _ (by omega), rdByte_wrByte_ne m _ (by omega)]

/-- A number written and read back is its low bytes. -/
theorem rdBytes_wrBytes (m : Memory) (a n v : Nat) : rdBytes (wrBytes m a n v) a n = v % 2 ^ (8 * n) := by
  induction n generalizing m a v with
  | zero => simp [rdBytes, Nat.mod_one]
  | succ n ih =>
    unfold wrBytes rdBytes
    rw [rdByte_wrBytes_out _ _ _ _ (by omega), rdByte_wrByte_same, ih]
    have h8 : (BitVec.ofNat 8 v).toNat = v % 256 := by simp
    rw [h8, show 8 * (n + 1) = 8 + 8 * n by omega, Nat.pow_add, show (2:Nat) ^ 8 = 256 by rfl, Nat.mod_mul]

/-- A byte of a written list. -/
theorem rdByte_wrList_in (m : Memory) (a : Nat) (l : List Byte) {i : Nat} (h : i < l.length) :
    rdByte (wrList m a l) (a + i) = l[i] := by
  induction l generalizing m a i with
  | nil => simp at h
  | cons b r ih =>
    unfold wrList
    cases i with
    | zero => rw [rdByte_wrList_out _ _ _ (by omega)]; simp
    | succ i =>
      have := ih (wrByte m a b) (a + 1) (i := i) (by simpa using h)
      rw [show a + (i + 1) = a + 1 + i by omega, this]; simp

end Sys2Proof
end

