-- ==== Sys2Proof/Laws/State.lean ====
section
/-!
SUPPORT. Laws of the state: what a register field reads after a write, and which parts of the state the shared operations leave as
they are, one lemma per part and operation.
-/
namespace Sys2Proof.Machine
open Sys2Proof Reg

/-! ## Register fields -/

@[simp] theorem getF_setF_same (s : State) (f : Field) (v : Nat) : getF (setF s f v) f = v % 2 ^ f.width := by
  unfold getF setF
  rw [mget_mset_same, Nat.mod_mod]

theorem getF_setF_ne (s : State) {f g : Field} (v : Nat) (h : g.key ≠ f.key) : getF (setF s f v) g = getF s g := by
  unfold getF setF
  rw [mget_mset_ne _ _ _ _ h]

/-- A field holds a value of its width. -/
theorem getF_lt (s : State) (f : Field) : getF s f < 2 ^ f.width := Nat.mod_lt _ (Nat.two_pow_pos _)

@[simp] theorem getF_setFlag_same (s : State) (f : Field) (b : Bool) : getF (setFlag s f b) f = b.toNat % 2 ^ f.width := getF_setF_same _ _ _

theorem getF_setFlag_ne (s : State) {f g : Field} (b : Bool) (h : g.key ≠ f.key) : getF (setFlag s f b) g = getF s g := getF_setF_ne _ _ h

@[simp] theorem flag_setFlag_same (s : State) (f : Field) (b : Bool) (hw : f.width = 1) : flag (setFlag s f b) f = b := by
  cases b <;> simp [flag, hw]

theorem flag_setF_ne (s : State) {f g : Field} (v : Nat) (h : g.key ≠ f.key) : flag (setF s f v) g = flag s g := by
  simp only [flag, getF_setF_ne s v h]

theorem flag_setFlag_ne (s : State) {f g : Field} (b : Bool) (h : g.key ≠ f.key) : flag (setFlag s f b) g = flag s g := flag_setF_ne _ _ h

theorem getF_addF_ne (s : State) {f g : Field} (n : Nat) (h : g.key ≠ f.key) : getF (addF s f n) g = getF s g := getF_setF_ne _ _ h

/-- A counter that is added to stays at its maximum. -/
theorem getF_addF_same (s : State) (f : Field) (n : Nat) : getF (addF s f n) f = min (getF s f + n) (2 ^ f.width - 1) := by
  have hp : 0 < 2 ^ f.width := Nat.two_pow_pos _
  unfold addF
  rw [getF_setF_same, Nat.mod_eq_of_lt]
  · rfl
  · unfold satAdd maxOf; omega

theorem getF_setFs_ne (l : List (Field × Nat)) (s : State) {g : Field} (h : ∀ e ∈ l, g.key ≠ e.1.key) : getF (setFs s l) g = getF s g := by
  induction l generalizing s with
  | nil => rfl
  | cons e r ih =>
    obtain ⟨f, v⟩ := e
    rw [setFs, ih _ (fun e he => h e (List.mem_cons_of_mem _ he)), getF_setF_ne _ _ (h _ List.mem_cons_self)]

/-- The registers of a state stay in the rising order of their addresses. -/
theorem sorted_setF (s : State) (f : Field) (v : Nat) (h : Map.sorted s.regs = true) : Map.sorted (setF s f v).regs = true :=
  Map.sorted_mset _ _ _ _ h

theorem sorted_setFs (l : List (Field × Nat)) (s : State) (h : Map.sorted s.regs = true) : Map.sorted (setFs s l).regs = true := by
  induction l generalizing s with
  | nil => exact h
  | cons e r ih => exact ih _ (sorted_setF s e.1 e.2 h)

/-! ## What the shared operations leave as it is -/

@[simp] theorem setF_eng (s : State) (f : Field) (v : Nat) : (setF s f v).eng = s.eng := rfl
@[simp] theorem setF_ex (s : State) (f : Field) (v : Nat) : (setF s f v).ex = s.ex := rfl
@[simp] theorem setF_cyc (s : State) (f : Field) (v : Nat) : (setF s f v).cyc = s.cyc := rfl
@[simp] theorem setF_ctl (s : State) (f : Field) (v : Nat) : (setF s f v).ctl = s.ctl := rfl
@[simp] theorem setF_qs (s : State) (f : Field) (v : Nat) : (setF s f v).qs = s.qs := rfl
@[simp] theorem setF_lnk (s : State) (f : Field) (v : Nat) : (setF s f v).lnk = s.lnk := rfl
@[simp] theorem setF_sys (s : State) (f : Field) (v : Nat) : (setF s f v).sys = s.sys := rfl
@[simp] theorem setF_sec (s : State) (f : Field) (v : Nat) : (setF s f v).sec = s.sec := rfl
@[simp] theorem setF_acq (s : State) (f : Field) (v : Nat) : (setF s f v).acq = s.acq := rfl
@[simp] theorem setF_trc (s : State) (f : Field) (v : Nat) : (setF s f v).trc = s.trc := rfl
@[simp] theorem setF_hbm (s : State) (f : Field) (v : Nat) : (setF s f v).hbm = s.hbm := rfl
@[simp] theorem setF_host (s : State) (f : Field) (v : Nat) : (setF s f v).host = s.host := rfl
@[simp] theorem setF_time (s : State) (f : Field) (v : Nat) : (setF s f v).time = s.time := rfl
@[simp] theorem setF_nv (s : State) (f : Field) (v : Nat) : (setF s f v).nv = s.nv := rfl
@[simp] theorem setF_taf (s : State) (f : Field) (v : Nat) : (setF s f v).taf = s.taf := rfl
@[simp] theorem setF_load (s : State) (f : Field) (v : Nat) : (setF s f v).load = s.load := rfl
@[simp] theorem setF_pw (s : State) (f : Field) (v : Nat) : (setF s f v).pw = s.pw := rfl
@[simp] theorem setF_ring (s : State) (f : Field) (v : Nat) : (setF s f v).ring = s.ring := rfl
@[simp] theorem setF_sp (s : State) (f : Field) (v : Nat) : (setF s f v).sp = s.sp := rfl
@[simp] theorem setF_free (s : State) (f : Field) (v : Nat) : (setF s f v).free = s.free := rfl
@[simp] theorem setF_readData (s : State) (f : Field) (v : Nat) : (setF s f v).readData = s.readData := rfl
@[simp] theorem setF_pending (s : State) (f : Field) (v : Nat) : (setF s f v).pending = s.pending := rfl

@[simp] theorem setFlag_eng (s : State) (f : Field) (b : Bool) : (setFlag s f b).eng = s.eng := rfl
@[simp] theorem setFlag_ex (s : State) (f : Field) (b : Bool) : (setFlag s f b).ex = s.ex := rfl
@[simp] theorem setFlag_cyc (s : State) (f : Field) (b : Bool) : (setFlag s f b).cyc = s.cyc := rfl
@[simp] theorem setFlag_ctl (s : State) (f : Field) (b : Bool) : (setFlag s f b).ctl = s.ctl := rfl
@[simp] theorem setFlag_qs (s : State) (f : Field) (b : Bool) : (setFlag s f b).qs = s.qs := rfl
@[simp] theorem setFlag_lnk (s : State) (f : Field) (b : Bool) : (setFlag s f b).lnk = s.lnk := rfl
@[simp] theorem setFlag_sys (s : State) (f : Field) (b : Bool) : (setFlag s f b).sys = s.sys := rfl
@[simp] theorem setFlag_sec (s : State) (f : Field) (b : Bool) : (setFlag s f b).sec = s.sec := rfl
@[simp] theorem setFlag_acq (s : State) (f : Field) (b : Bool) : (setFlag s f b).acq = s.acq := rfl
@[simp] theorem setFlag_trc (s : State) (f : Field) (b : Bool) : (setFlag s f b).trc = s.trc := rfl
@[simp] theorem setFlag_hbm (s : State) (f : Field) (b : Bool) : (setFlag s f b).hbm = s.hbm := rfl
@[simp] theorem setFlag_host (s : State) (f : Field) (b : Bool) : (setFlag s f b).host = s.host := rfl
@[simp] theorem setFlag_time (s : State) (f : Field) (b : Bool) : (setFlag s f b).time = s.time := rfl
@[simp] theorem setFlag_nv (s : State) (f : Field) (b : Bool) : (setFlag s f b).nv = s.nv := rfl
@[simp] theorem setFlag_taf (s : State) (f : Field) (b : Bool) : (setFlag s f b).taf = s.taf := rfl
@[simp] theorem setFlag_load (s : State) (f : Field) (b : Bool) : (setFlag s f b).load = s.load := rfl
@[simp] theorem setFlag_pw (s : State) (f : Field) (b : Bool) : (setFlag s f b).pw = s.pw := rfl
@[simp] theorem setFlag_ring (s : State) (f : Field) (b : Bool) : (setFlag s f b).ring = s.ring := rfl
@[simp] theorem setFlag_sp (s : State) (f : Field) (b : Bool) : (setFlag s f b).sp = s.sp := rfl
@[simp] theorem setFlag_free (s : State) (f : Field) (b : Bool) : (setFlag s f b).free = s.free := rfl
@[simp] theorem setFlag_readData (s : State) (f : Field) (b : Bool) : (setFlag s f b).readData = s.readData := rfl
@[simp] theorem setFlag_pending (s : State) (f : Field) (b : Bool) : (setFlag s f b).pending = s.pending := rfl

@[simp] theorem addF_eng (s : State) (f : Field) (n : Nat) : (addF s f n).eng = s.eng := rfl
@[simp] theorem addF_ex (s : State) (f : Field) (n : Nat) : (addF s f n).ex = s.ex := rfl
@[simp] theorem addF_cyc (s : State) (f : Field) (n : Nat) : (addF s f n).cyc = s.cyc := rfl
@[simp] theorem addF_ctl (s : State) (f : Field) (n : Nat) : (addF s f n).ctl = s.ctl := rfl
@[simp] theorem addF_qs (s : State) (f : Field) (n : Nat) : (addF s f n).qs = s.qs := rfl
@[simp] theorem addF_lnk (s : State) (f : Field) (n : Nat) : (addF s f n).lnk = s.lnk := rfl
@[simp] theorem addF_sys (s : State) (f : Field) (n : Nat) : (addF s f n).sys = s.sys := rfl
@[simp] theorem addF_sec (s : State) (f : Field) (n : Nat) : (addF s f n).sec = s.sec := rfl
@[simp] theorem addF_acq (s : State) (f : Field) (n : Nat) : (addF s f n).acq = s.acq := rfl
@[simp] theorem addF_trc (s : State) (f : Field) (n : Nat) : (addF s f n).trc = s.trc := rfl
@[simp] theorem addF_hbm (s : State) (f : Field) (n : Nat) : (addF s f n).hbm = s.hbm := rfl
@[simp] theorem addF_host (s : State) (f : Field) (n : Nat) : (addF s f n).host = s.host := rfl
@[simp] theorem addF_time (s : State) (f : Field) (n : Nat) : (addF s f n).time = s.time := rfl
@[simp] theorem addF_nv (s : State) (f : Field) (n : Nat) : (addF s f n).nv = s.nv := rfl
@[simp] theorem addF_taf (s : State) (f : Field) (n : Nat) : (addF s f n).taf = s.taf := rfl
@[simp] theorem addF_load (s : State) (f : Field) (n : Nat) : (addF s f n).load = s.load := rfl
@[simp] theorem addF_pw (s : State) (f : Field) (n : Nat) : (addF s f n).pw = s.pw := rfl
@[simp] theorem addF_ring (s : State) (f : Field) (n : Nat) : (addF s f n).ring = s.ring := rfl
@[simp] theorem addF_sp (s : State) (f : Field) (n : Nat) : (addF s f n).sp = s.sp := rfl
@[simp] theorem addF_free (s : State) (f : Field) (n : Nat) : (addF s f n).free = s.free := rfl
@[simp] theorem addF_readData (s : State) (f : Field) (n : Nat) : (addF s f n).readData = s.readData := rfl
@[simp] theorem addF_pending (s : State) (f : Field) (n : Nat) : (addF s f n).pending = s.pending := rfl

@[simp] theorem drawFree_regs (s : State) : (drawFree s).regs = s.regs := rfl
@[simp] theorem drawFree_eng (s : State) : (drawFree s).eng = s.eng := rfl
@[simp] theorem drawFree_ex (s : State) : (drawFree s).ex = s.ex := rfl
@[simp] theorem drawFree_cyc (s : State) : (drawFree s).cyc = s.cyc := rfl
@[simp] theorem drawFree_ctl (s : State) : (drawFree s).ctl = s.ctl := rfl
@[simp] theorem drawFree_qs (s : State) : (drawFree s).qs = s.qs := rfl
@[simp] theorem drawFree_lnk (s : State) : (drawFree s).lnk = s.lnk := rfl
@[simp] theorem drawFree_sys (s : State) : (drawFree s).sys = s.sys := rfl
@[simp] theorem drawFree_sec (s : State) : (drawFree s).sec = s.sec := rfl
@[simp] theorem drawFree_acq (s : State) : (drawFree s).acq = s.acq := rfl
@[simp] theorem drawFree_trc (s : State) : (drawFree s).trc = s.trc := rfl
@[simp] theorem drawFree_hbm (s : State) : (drawFree s).hbm = s.hbm := rfl
@[simp] theorem drawFree_host (s : State) : (drawFree s).host = s.host := rfl
@[simp] theorem drawFree_time (s : State) : (drawFree s).time = s.time := rfl
@[simp] theorem drawFree_nv (s : State) : (drawFree s).nv = s.nv := rfl
@[simp] theorem drawFree_taf (s : State) : (drawFree s).taf = s.taf := rfl
@[simp] theorem drawFree_load (s : State) : (drawFree s).load = s.load := rfl
@[simp] theorem drawFree_pw (s : State) : (drawFree s).pw = s.pw := rfl
@[simp] theorem drawFree_ring (s : State) : (drawFree s).ring = s.ring := rfl
@[simp] theorem drawFree_sp (s : State) : (drawFree s).sp = s.sp := rfl
@[simp] theorem drawFree_readData (s : State) : (drawFree s).readData = s.readData := rfl
@[simp] theorem drawFree_pending (s : State) : (drawFree s).pending = s.pending := rfl

@[simp] theorem setArmed_regs (s : State) (j : Nat) (b : Bool) : (setArmed s j b).regs = s.regs := rfl
@[simp] theorem setArmed_eng (s : State) (j : Nat) (b : Bool) : (setArmed s j b).eng = s.eng := rfl
@[simp] theorem setArmed_ex (s : State) (j : Nat) (b : Bool) : (setArmed s j b).ex = s.ex := rfl
@[simp] theorem setArmed_cyc (s : State) (j : Nat) (b : Bool) : (setArmed s j b).cyc = s.cyc := rfl
@[simp] theorem setArmed_ctl (s : State) (j : Nat) (b : Bool) : (setArmed s j b).ctl = s.ctl := rfl
@[simp] theorem setArmed_qs (s : State) (j : Nat) (b : Bool) : (setArmed s j b).qs = s.qs := rfl
@[simp] theorem setArmed_lnk (s : State) (j : Nat) (b : Bool) : (setArmed s j b).lnk = s.lnk := rfl
@[simp] theorem setArmed_sys (s : State) (j : Nat) (b : Bool) : (setArmed s j b).sys = s.sys := rfl
@[simp] theorem setArmed_sec (s : State) (j : Nat) (b : Bool) : (setArmed s j b).sec = s.sec := rfl
@[simp] theorem setArmed_acq (s : State) (j : Nat) (b : Bool) : (setArmed s j b).acq = s.acq := rfl
@[simp] theorem setArmed_trc (s : State) (j : Nat) (b : Bool) : (setArmed s j b).trc = s.trc := rfl
@[simp] theorem setArmed_hbm (s : State) (j : Nat) (b : Bool) : (setArmed s j b).hbm = s.hbm := rfl
@[simp] theorem setArmed_host (s : State) (j : Nat) (b : Bool) : (setArmed s j b).host = s.host := rfl
@[simp] theorem setArmed_nv (s : State) (j : Nat) (b : Bool) : (setArmed s j b).nv = s.nv := rfl
@[simp] theorem setArmed_taf (s : State) (j : Nat) (b : Bool) : (setArmed s j b).taf = s.taf := rfl
@[simp] theorem setArmed_load (s : State) (j : Nat) (b : Bool) : (setArmed s j b).load = s.load := rfl
@[simp] theorem setArmed_pw (s : State) (j : Nat) (b : Bool) : (setArmed s j b).pw = s.pw := rfl
@[simp] theorem setArmed_ring (s : State) (j : Nat) (b : Bool) : (setArmed s j b).ring = s.ring := rfl
@[simp] theorem setArmed_sp (s : State) (j : Nat) (b : Bool) : (setArmed s j b).sp = s.sp := rfl
@[simp] theorem setArmed_free (s : State) (j : Nat) (b : Bool) : (setArmed s j b).free = s.free := rfl
@[simp] theorem setArmed_readData (s : State) (j : Nat) (b : Bool) : (setArmed s j b).readData = s.readData := rfl
@[simp] theorem setArmed_pending (s : State) (j : Nat) (b : Bool) : (setArmed s j b).pending = s.pending := rfl

@[simp] theorem writeImem_regs (s : State) (k : Nat) (w : BitVec 80) : (writeImem s k w).regs = s.regs := rfl
@[simp] theorem writeImem_ex (s : State) (k : Nat) (w : BitVec 80) : (writeImem s k w).ex = s.ex := rfl
@[simp] theorem writeImem_cyc (s : State) (k : Nat) (w : BitVec 80) : (writeImem s k w).cyc = s.cyc := rfl
@[simp] theorem writeImem_ctl (s : State) (k : Nat) (w : BitVec 80) : (writeImem s k w).ctl = s.ctl := rfl
@[simp] theorem writeImem_qs (s : State) (k : Nat) (w : BitVec 80) : (writeImem s k w).qs = s.qs := rfl
@[simp] theorem writeImem_lnk (s : State) (k : Nat) (w : BitVec 80) : (writeImem s k w).lnk = s.lnk := rfl
@[simp] theorem writeImem_sys (s : State) (k : Nat) (w : BitVec 80) : (writeImem s k w).sys = s.sys := rfl
@[simp] theorem writeImem_sec (s : State) (k : Nat) (w : BitVec 80) : (writeImem s k w).sec = s.sec := rfl
@[simp] theorem writeImem_acq (s : State) (k : Nat) (w : BitVec 80) : (writeImem s k w).acq = s.acq := rfl
@[simp] theorem writeImem_trc (s : State) (k : Nat) (w : BitVec 80) : (writeImem s k w).trc = s.trc := rfl
@[simp] theorem writeImem_hbm (s : State) (k : Nat) (w : BitVec 80) : (writeImem s k w).hbm = s.hbm := rfl
@[simp] theorem writeImem_host (s : State) (k : Nat) (w : BitVec 80) : (writeImem s k w).host = s.host := rfl
@[simp] theorem writeImem_time (s : State) (k : Nat) (w : BitVec 80) : (writeImem s k w).time = s.time := rfl
@[simp] theorem writeImem_nv (s : State) (k : Nat) (w : BitVec 80) : (writeImem s k w).nv = s.nv := rfl
@[simp] theorem writeImem_taf (s : State) (k : Nat) (w : BitVec 80) : (writeImem s k w).taf = s.taf := rfl
@[simp] theorem writeImem_load (s : State) (k : Nat) (w : BitVec 80) : (writeImem s k w).load = s.load := rfl
@[simp] theorem writeImem_pw (s : State) (k : Nat) (w : BitVec 80) : (writeImem s k w).pw = s.pw := rfl
@[simp] theorem writeImem_ring (s : State) (k : Nat) (w : BitVec 80) : (writeImem s k w).ring = s.ring := rfl
@[simp] theorem writeImem_sp (s : State) (k : Nat) (w : BitVec 80) : (writeImem s k w).sp = s.sp := rfl
@[simp] theorem writeImem_free (s : State) (k : Nat) (w : BitVec 80) : (writeImem s k w).free = s.free := rfl
@[simp] theorem writeImem_readData (s : State) (k : Nat) (w : BitVec 80) : (writeImem s k w).readData = s.readData := rfl
@[simp] theorem writeImem_pending (s : State) (k : Nat) (w : BitVec 80) : (writeImem s k w).pending = s.pending := rfl

/-- Writing fields changes the registers and nothing else. -/
theorem setFs_frame (l : List (Field × Nat)) (s : State) : { setFs s l with regs := s.regs } = s := by
  induction l generalizing s with
  | nil => rfl
  | cons e r ih => have := ih (setF s e.1 e.2); simp only at this; cases h : setFs (setF s e.1 e.2) r; simp_all [setFs, setF]

@[simp] theorem setFs_eng (s : State) (l : List (Field × Nat)) : (setFs s l).eng = s.eng := (congrArg State.eng (setFs_frame l s) :)
@[simp] theorem setFs_ex (s : State) (l : List (Field × Nat)) : (setFs s l).ex = s.ex := (congrArg State.ex (setFs_frame l s) :)
@[simp] theorem setFs_cyc (s : State) (l : List (Field × Nat)) : (setFs s l).cyc = s.cyc := (congrArg State.cyc (setFs_frame l s) :)
@[simp] theorem setFs_ctl (s : State) (l : List (Field × Nat)) : (setFs s l).ctl = s.ctl := (congrArg State.ctl (setFs_frame l s) :)
@[simp] theorem setFs_qs (s : State) (l : List (Field × Nat)) : (setFs s l).qs = s.qs := (congrArg State.qs (setFs_frame l s) :)
@[simp] theorem setFs_lnk (s : State) (l : List (Field × Nat)) : (setFs s l).lnk = s.lnk := (congrArg State.lnk (setFs_frame l s) :)
@[simp] theorem setFs_sys (s : State) (l : List (Field × Nat)) : (setFs s l).sys = s.sys := (congrArg State.sys (setFs_frame l s) :)
@[simp] theorem setFs_sec (s : State) (l : List (Field × Nat)) : (setFs s l).sec = s.sec := (congrArg State.sec (setFs_frame l s) :)
@[simp] theorem setFs_acq (s : State) (l : List (Field × Nat)) : (setFs s l).acq = s.acq := (congrArg State.acq (setFs_frame l s) :)
@[simp] theorem setFs_trc (s : State) (l : List (Field × Nat)) : (setFs s l).trc = s.trc := (congrArg State.trc (setFs_frame l s) :)
@[simp] theorem setFs_hbm (s : State) (l : List (Field × Nat)) : (setFs s l).hbm = s.hbm := (congrArg State.hbm (setFs_frame l s) :)
@[simp] theorem setFs_host (s : State) (l : List (Field × Nat)) : (setFs s l).host = s.host := (congrArg State.host (setFs_frame l s) :)
@[simp] theorem setFs_time (s : State) (l : List (Field × Nat)) : (setFs s l).time = s.time := (congrArg State.time (setFs_frame l s) :)
@[simp] theorem setFs_nv (s : State) (l : List (Field × Nat)) : (setFs s l).nv = s.nv := (congrArg State.nv (setFs_frame l s) :)
@[simp] theorem setFs_taf (s : State) (l : List (Field × Nat)) : (setFs s l).taf = s.taf := (congrArg State.taf (setFs_frame l s) :)
@[simp] theorem setFs_load (s : State) (l : List (Field × Nat)) : (setFs s l).load = s.load := (congrArg State.load (setFs_frame l s) :)
@[simp] theorem setFs_pw (s : State) (l : List (Field × Nat)) : (setFs s l).pw = s.pw := (congrArg State.pw (setFs_frame l s) :)
@[simp] theorem setFs_ring (s : State) (l : List (Field × Nat)) : (setFs s l).ring = s.ring := (congrArg State.ring (setFs_frame l s) :)
@[simp] theorem setFs_sp (s : State) (l : List (Field × Nat)) : (setFs s l).sp = s.sp := (congrArg State.sp (setFs_frame l s) :)
@[simp] theorem setFs_free (s : State) (l : List (Field × Nat)) : (setFs s l).free = s.free := (congrArg State.free (setFs_frame l s) :)
@[simp] theorem setFs_readData (s : State) (l : List (Field × Nat)) : (setFs s l).readData = s.readData := (congrArg State.readData (setFs_frame l s) :)
@[simp] theorem setFs_pending (s : State) (l : List (Field × Nat)) : (setFs s l).pending = s.pending := (congrArg State.pending (setFs_frame l s) :)

/-- A message signalled interrupt changes the vectors and nothing else (R491, R492). -/
theorem sendMsi_frame (s : State) (e : Nat) : { sendMsi s e with ctl := s.ctl } = s := by
  unfold sendMsi; split
  · dsimp only; split <;> rfl
  · rfl

@[simp] theorem sendMsi_regs (s : State) (e : Nat) : (sendMsi s e).regs = s.regs := (congrArg State.regs (sendMsi_frame s e) :)
@[simp] theorem sendMsi_eng (s : State) (e : Nat) : (sendMsi s e).eng = s.eng := (congrArg State.eng (sendMsi_frame s e) :)
@[simp] theorem sendMsi_ex (s : State) (e : Nat) : (sendMsi s e).ex = s.ex := (congrArg State.ex (sendMsi_frame s e) :)
@[simp] theorem sendMsi_cyc (s : State) (e : Nat) : (sendMsi s e).cyc = s.cyc := (congrArg State.cyc (sendMsi_frame s e) :)
@[simp] theorem sendMsi_qs (s : State) (e : Nat) : (sendMsi s e).qs = s.qs := (congrArg State.qs (sendMsi_frame s e) :)
@[simp] theorem sendMsi_lnk (s : State) (e : Nat) : (sendMsi s e).lnk = s.lnk := (congrArg State.lnk (sendMsi_frame s e) :)
@[simp] theorem sendMsi_sys (s : State) (e : Nat) : (sendMsi s e).sys = s.sys := (congrArg State.sys (sendMsi_frame s e) :)
@[simp] theorem sendMsi_sec (s : State) (e : Nat) : (sendMsi s e).sec = s.sec := (congrArg State.sec (sendMsi_frame s e) :)
@[simp] theorem sendMsi_acq (s : State) (e : Nat) : (sendMsi s e).acq = s.acq := (congrArg State.acq (sendMsi_frame s e) :)
@[simp] theorem sendMsi_trc (s : State) (e : Nat) : (sendMsi s e).trc = s.trc := (congrArg State.trc (sendMsi_frame s e) :)
@[simp] theorem sendMsi_hbm (s : State) (e : Nat) : (sendMsi s e).hbm = s.hbm := (congrArg State.hbm (sendMsi_frame s e) :)
@[simp] theorem sendMsi_host (s : State) (e : Nat) : (sendMsi s e).host = s.host := (congrArg State.host (sendMsi_frame s e) :)
@[simp] theorem sendMsi_time (s : State) (e : Nat) : (sendMsi s e).time = s.time := (congrArg State.time (sendMsi_frame s e) :)
@[simp] theorem sendMsi_nv (s : State) (e : Nat) : (sendMsi s e).nv = s.nv := (congrArg State.nv (sendMsi_frame s e) :)
@[simp] theorem sendMsi_taf (s : State) (e : Nat) : (sendMsi s e).taf = s.taf := (congrArg State.taf (sendMsi_frame s e) :)
@[simp] theorem sendMsi_load (s : State) (e : Nat) : (sendMsi s e).load = s.load := (congrArg State.load (sendMsi_frame s e) :)
@[simp] theorem sendMsi_pw (s : State) (e : Nat) : (sendMsi s e).pw = s.pw := (congrArg State.pw (sendMsi_frame s e) :)
@[simp] theorem sendMsi_ring (s : State) (e : Nat) : (sendMsi s e).ring = s.ring := (congrArg State.ring (sendMsi_frame s e) :)
@[simp] theorem sendMsi_sp (s : State) (e : Nat) : (sendMsi s e).sp = s.sp := (congrArg State.sp (sendMsi_frame s e) :)
@[simp] theorem sendMsi_free (s : State) (e : Nat) : (sendMsi s e).free = s.free := (congrArg State.free (sendMsi_frame s e) :)
@[simp] theorem sendMsi_readData (s : State) (e : Nat) : (sendMsi s e).readData = s.readData := (congrArg State.readData (sendMsi_frame s e) :)
@[simp] theorem sendMsi_pending (s : State) (e : Nat) : (sendMsi s e).pending = s.pending := (congrArg State.pending (sendMsi_frame s e) :)

/-- An event changes its pending bit and the vectors, nothing else (R491). -/
theorem raiseEv_frame (s : State) (e : Nat) : { raiseEv s e with regs := s.regs, ctl := s.ctl } = s := by
  unfold raiseEv; split
  · rfl
  · exact (congrArg (fun x : State => { x with regs := s.regs }) (sendMsi_frame (setFlag s (evPend e) true) e) :)

@[simp] theorem raiseEv_eng (s : State) (e : Nat) : (raiseEv s e).eng = s.eng := (congrArg State.eng (raiseEv_frame s e) :)
@[simp] theorem raiseEv_ex (s : State) (e : Nat) : (raiseEv s e).ex = s.ex := (congrArg State.ex (raiseEv_frame s e) :)
@[simp] theorem raiseEv_cyc (s : State) (e : Nat) : (raiseEv s e).cyc = s.cyc := (congrArg State.cyc (raiseEv_frame s e) :)
@[simp] theorem raiseEv_qs (s : State) (e : Nat) : (raiseEv s e).qs = s.qs := (congrArg State.qs (raiseEv_frame s e) :)
@[simp] theorem raiseEv_lnk (s : State) (e : Nat) : (raiseEv s e).lnk = s.lnk := (congrArg State.lnk (raiseEv_frame s e) :)
@[simp] theorem raiseEv_sys (s : State) (e : Nat) : (raiseEv s e).sys = s.sys := (congrArg State.sys (raiseEv_frame s e) :)
@[simp] theorem raiseEv_sec (s : State) (e : Nat) : (raiseEv s e).sec = s.sec := (congrArg State.sec (raiseEv_frame s e) :)
@[simp] theorem raiseEv_acq (s : State) (e : Nat) : (raiseEv s e).acq = s.acq := (congrArg State.acq (raiseEv_frame s e) :)
@[simp] theorem raiseEv_trc (s : State) (e : Nat) : (raiseEv s e).trc = s.trc := (congrArg State.trc (raiseEv_frame s e) :)
@[simp] theorem raiseEv_hbm (s : State) (e : Nat) : (raiseEv s e).hbm = s.hbm := (congrArg State.hbm (raiseEv_frame s e) :)
@[simp] theorem raiseEv_host (s : State) (e : Nat) : (raiseEv s e).host = s.host := (congrArg State.host (raiseEv_frame s e) :)
@[simp] theorem raiseEv_time (s : State) (e : Nat) : (raiseEv s e).time = s.time := (congrArg State.time (raiseEv_frame s e) :)
@[simp] theorem raiseEv_nv (s : State) (e : Nat) : (raiseEv s e).nv = s.nv := (congrArg State.nv (raiseEv_frame s e) :)
@[simp] theorem raiseEv_taf (s : State) (e : Nat) : (raiseEv s e).taf = s.taf := (congrArg State.taf (raiseEv_frame s e) :)
@[simp] theorem raiseEv_load (s : State) (e : Nat) : (raiseEv s e).load = s.load := (congrArg State.load (raiseEv_frame s e) :)
@[simp] theorem raiseEv_pw (s : State) (e : Nat) : (raiseEv s e).pw = s.pw := (congrArg State.pw (raiseEv_frame s e) :)
@[simp] theorem raiseEv_ring (s : State) (e : Nat) : (raiseEv s e).ring = s.ring := (congrArg State.ring (raiseEv_frame s e) :)
@[simp] theorem raiseEv_sp (s : State) (e : Nat) : (raiseEv s e).sp = s.sp := (congrArg State.sp (raiseEv_frame s e) :)
@[simp] theorem raiseEv_free (s : State) (e : Nat) : (raiseEv s e).free = s.free := (congrArg State.free (raiseEv_frame s e) :)
@[simp] theorem raiseEv_readData (s : State) (e : Nat) : (raiseEv s e).readData = s.readData := (congrArg State.readData (raiseEv_frame s e) :)
@[simp] theorem raiseEv_pending (s : State) (e : Nat) : (raiseEv s e).pending = s.pending := (congrArg State.pending (raiseEv_frame s e) :)

/-- The pending bit of a raised event is 1 (R491). -/
@[simp] theorem flag_raiseEv_same (s : State) (e : Nat) : flag (raiseEv s e) (evPend e) = true := by
  unfold raiseEv; split
  · assumption
  · simp [flag, getF, sendMsi_regs]; simp [setFlag, setF, evPend, fld]

/-- No other register field changes when an event is raised. -/
theorem getF_raiseEv_ne (s : State) (e : Nat) {g : Field} (h : g.key ≠ (evPend e).key) : getF (raiseEv s e) g = getF s g := by
  unfold raiseEv; split
  · rfl
  · rw [show getF (sendMsi (setFlag s (evPend e) true) e) g = getF (setFlag s (evPend e) true) g by simp only [getF, sendMsi_regs]]
    exact getF_setFlag_ne s true h

end Sys2Proof.Machine
end

