-- ==== Sys2Proof/Laws/Parts.lean ====
section
/-!
SUPPORT. Laws of the updates of one part of the state (a lane, a trunk, a queue, a port, a half ...): what is read back of it, and that
every other part stays. Then what a reply can change.
-/
namespace Sys2Proof.Machine
open Sys2Proof Reg

/-! ## Updates of one part leave the other parts -/

@[simp] theorem setPw_regs (s : State) (f : Power → Power) : (setPw s f).regs = s.regs := rfl
@[simp] theorem setPw_eng (s : State) (f : Power → Power) : (setPw s f).eng = s.eng := rfl
@[simp] theorem setPw_ex (s : State) (f : Power → Power) : (setPw s f).ex = s.ex := rfl
@[simp] theorem setPw_cyc (s : State) (f : Power → Power) : (setPw s f).cyc = s.cyc := rfl
@[simp] theorem setPw_ctl (s : State) (f : Power → Power) : (setPw s f).ctl = s.ctl := rfl
@[simp] theorem setPw_qs (s : State) (f : Power → Power) : (setPw s f).qs = s.qs := rfl
@[simp] theorem setPw_lnk (s : State) (f : Power → Power) : (setPw s f).lnk = s.lnk := rfl
@[simp] theorem setPw_sys (s : State) (f : Power → Power) : (setPw s f).sys = s.sys := rfl
@[simp] theorem setPw_sec (s : State) (f : Power → Power) : (setPw s f).sec = s.sec := rfl
@[simp] theorem setPw_acq (s : State) (f : Power → Power) : (setPw s f).acq = s.acq := rfl
@[simp] theorem setPw_trc (s : State) (f : Power → Power) : (setPw s f).trc = s.trc := rfl
@[simp] theorem setPw_hbm (s : State) (f : Power → Power) : (setPw s f).hbm = s.hbm := rfl
@[simp] theorem setPw_host (s : State) (f : Power → Power) : (setPw s f).host = s.host := rfl
@[simp] theorem setPw_time (s : State) (f : Power → Power) : (setPw s f).time = s.time := rfl
@[simp] theorem setPw_nv (s : State) (f : Power → Power) : (setPw s f).nv = s.nv := rfl
@[simp] theorem setPw_taf (s : State) (f : Power → Power) : (setPw s f).taf = s.taf := rfl
@[simp] theorem setPw_load (s : State) (f : Power → Power) : (setPw s f).load = s.load := rfl
@[simp] theorem setPw_ring (s : State) (f : Power → Power) : (setPw s f).ring = s.ring := rfl
@[simp] theorem setPw_sp (s : State) (f : Power → Power) : (setPw s f).sp = s.sp := rfl
@[simp] theorem setPw_free (s : State) (f : Power → Power) : (setPw s f).free = s.free := rfl
@[simp] theorem setPw_readData (s : State) (f : Power → Power) : (setPw s f).readData = s.readData := rfl
@[simp] theorem setPw_pending (s : State) (f : Power → Power) : (setPw s f).pending = s.pending := rfl

@[simp] theorem setEng_regs (s : State) (f : Engine → Engine) : (setEng s f).regs = s.regs := rfl
@[simp] theorem setEng_ex (s : State) (f : Engine → Engine) : (setEng s f).ex = s.ex := rfl
@[simp] theorem setEng_cyc (s : State) (f : Engine → Engine) : (setEng s f).cyc = s.cyc := rfl
@[simp] theorem setEng_ctl (s : State) (f : Engine → Engine) : (setEng s f).ctl = s.ctl := rfl
@[simp] theorem setEng_qs (s : State) (f : Engine → Engine) : (setEng s f).qs = s.qs := rfl
@[simp] theorem setEng_lnk (s : State) (f : Engine → Engine) : (setEng s f).lnk = s.lnk := rfl
@[simp] theorem setEng_sys (s : State) (f : Engine → Engine) : (setEng s f).sys = s.sys := rfl
@[simp] theorem setEng_sec (s : State) (f : Engine → Engine) : (setEng s f).sec = s.sec := rfl
@[simp] theorem setEng_acq (s : State) (f : Engine → Engine) : (setEng s f).acq = s.acq := rfl
@[simp] theorem setEng_trc (s : State) (f : Engine → Engine) : (setEng s f).trc = s.trc := rfl
@[simp] theorem setEng_hbm (s : State) (f : Engine → Engine) : (setEng s f).hbm = s.hbm := rfl
@[simp] theorem setEng_host (s : State) (f : Engine → Engine) : (setEng s f).host = s.host := rfl
@[simp] theorem setEng_time (s : State) (f : Engine → Engine) : (setEng s f).time = s.time := rfl
@[simp] theorem setEng_nv (s : State) (f : Engine → Engine) : (setEng s f).nv = s.nv := rfl
@[simp] theorem setEng_taf (s : State) (f : Engine → Engine) : (setEng s f).taf = s.taf := rfl
@[simp] theorem setEng_load (s : State) (f : Engine → Engine) : (setEng s f).load = s.load := rfl
@[simp] theorem setEng_pw (s : State) (f : Engine → Engine) : (setEng s f).pw = s.pw := rfl
@[simp] theorem setEng_ring (s : State) (f : Engine → Engine) : (setEng s f).ring = s.ring := rfl
@[simp] theorem setEng_sp (s : State) (f : Engine → Engine) : (setEng s f).sp = s.sp := rfl
@[simp] theorem setEng_free (s : State) (f : Engine → Engine) : (setEng s f).free = s.free := rfl
@[simp] theorem setEng_readData (s : State) (f : Engine → Engine) : (setEng s f).readData = s.readData := rfl
@[simp] theorem setEng_pending (s : State) (f : Engine → Engine) : (setEng s f).pending = s.pending := rfl

@[simp] theorem setHalf_regs (s : State) (pc : Nat) (half : Bool) (h : Half) : (setHalf s pc half h).regs = s.regs := rfl
@[simp] theorem setHalf_ex (s : State) (pc : Nat) (half : Bool) (h : Half) : (setHalf s pc half h).ex = s.ex := rfl
@[simp] theorem setHalf_cyc (s : State) (pc : Nat) (half : Bool) (h : Half) : (setHalf s pc half h).cyc = s.cyc := rfl
@[simp] theorem setHalf_ctl (s : State) (pc : Nat) (half : Bool) (h : Half) : (setHalf s pc half h).ctl = s.ctl := rfl
@[simp] theorem setHalf_qs (s : State) (pc : Nat) (half : Bool) (h : Half) : (setHalf s pc half h).qs = s.qs := rfl
@[simp] theorem setHalf_lnk (s : State) (pc : Nat) (half : Bool) (h : Half) : (setHalf s pc half h).lnk = s.lnk := rfl
@[simp] theorem setHalf_sys (s : State) (pc : Nat) (half : Bool) (h : Half) : (setHalf s pc half h).sys = s.sys := rfl
@[simp] theorem setHalf_sec (s : State) (pc : Nat) (half : Bool) (h : Half) : (setHalf s pc half h).sec = s.sec := rfl
@[simp] theorem setHalf_acq (s : State) (pc : Nat) (half : Bool) (h : Half) : (setHalf s pc half h).acq = s.acq := rfl
@[simp] theorem setHalf_trc (s : State) (pc : Nat) (half : Bool) (h : Half) : (setHalf s pc half h).trc = s.trc := rfl
@[simp] theorem setHalf_hbm (s : State) (pc : Nat) (half : Bool) (h : Half) : (setHalf s pc half h).hbm = s.hbm := rfl
@[simp] theorem setHalf_host (s : State) (pc : Nat) (half : Bool) (h : Half) : (setHalf s pc half h).host = s.host := rfl
@[simp] theorem setHalf_time (s : State) (pc : Nat) (half : Bool) (h : Half) : (setHalf s pc half h).time = s.time := rfl
@[simp] theorem setHalf_nv (s : State) (pc : Nat) (half : Bool) (h : Half) : (setHalf s pc half h).nv = s.nv := rfl
@[simp] theorem setHalf_taf (s : State) (pc : Nat) (half : Bool) (h : Half) : (setHalf s pc half h).taf = s.taf := rfl
@[simp] theorem setHalf_load (s : State) (pc : Nat) (half : Bool) (h : Half) : (setHalf s pc half h).load = s.load := rfl
@[simp] theorem setHalf_pw (s : State) (pc : Nat) (half : Bool) (h : Half) : (setHalf s pc half h).pw = s.pw := rfl
@[simp] theorem setHalf_ring (s : State) (pc : Nat) (half : Bool) (h : Half) : (setHalf s pc half h).ring = s.ring := rfl
@[simp] theorem setHalf_sp (s : State) (pc : Nat) (half : Bool) (h : Half) : (setHalf s pc half h).sp = s.sp := rfl
@[simp] theorem setHalf_free (s : State) (pc : Nat) (half : Bool) (h : Half) : (setHalf s pc half h).free = s.free := rfl
@[simp] theorem setHalf_readData (s : State) (pc : Nat) (half : Bool) (h : Half) : (setHalf s pc half h).readData = s.readData := rfl
@[simp] theorem setHalf_pending (s : State) (pc : Nat) (half : Bool) (h : Half) : (setHalf s pc half h).pending = s.pending := rfl

@[simp] theorem setMmp_regs (s : State) (t p : Nat) (m : MmpPort) : (setMmp s t p m).regs = s.regs := rfl
@[simp] theorem setMmp_ex (s : State) (t p : Nat) (m : MmpPort) : (setMmp s t p m).ex = s.ex := rfl
@[simp] theorem setMmp_cyc (s : State) (t p : Nat) (m : MmpPort) : (setMmp s t p m).cyc = s.cyc := rfl
@[simp] theorem setMmp_ctl (s : State) (t p : Nat) (m : MmpPort) : (setMmp s t p m).ctl = s.ctl := rfl
@[simp] theorem setMmp_qs (s : State) (t p : Nat) (m : MmpPort) : (setMmp s t p m).qs = s.qs := rfl
@[simp] theorem setMmp_lnk (s : State) (t p : Nat) (m : MmpPort) : (setMmp s t p m).lnk = s.lnk := rfl
@[simp] theorem setMmp_sys (s : State) (t p : Nat) (m : MmpPort) : (setMmp s t p m).sys = s.sys := rfl
@[simp] theorem setMmp_sec (s : State) (t p : Nat) (m : MmpPort) : (setMmp s t p m).sec = s.sec := rfl
@[simp] theorem setMmp_acq (s : State) (t p : Nat) (m : MmpPort) : (setMmp s t p m).acq = s.acq := rfl
@[simp] theorem setMmp_trc (s : State) (t p : Nat) (m : MmpPort) : (setMmp s t p m).trc = s.trc := rfl
@[simp] theorem setMmp_hbm (s : State) (t p : Nat) (m : MmpPort) : (setMmp s t p m).hbm = s.hbm := rfl
@[simp] theorem setMmp_host (s : State) (t p : Nat) (m : MmpPort) : (setMmp s t p m).host = s.host := rfl
@[simp] theorem setMmp_time (s : State) (t p : Nat) (m : MmpPort) : (setMmp s t p m).time = s.time := rfl
@[simp] theorem setMmp_nv (s : State) (t p : Nat) (m : MmpPort) : (setMmp s t p m).nv = s.nv := rfl
@[simp] theorem setMmp_taf (s : State) (t p : Nat) (m : MmpPort) : (setMmp s t p m).taf = s.taf := rfl
@[simp] theorem setMmp_load (s : State) (t p : Nat) (m : MmpPort) : (setMmp s t p m).load = s.load := rfl
@[simp] theorem setMmp_pw (s : State) (t p : Nat) (m : MmpPort) : (setMmp s t p m).pw = s.pw := rfl
@[simp] theorem setMmp_ring (s : State) (t p : Nat) (m : MmpPort) : (setMmp s t p m).ring = s.ring := rfl
@[simp] theorem setMmp_sp (s : State) (t p : Nat) (m : MmpPort) : (setMmp s t p m).sp = s.sp := rfl
@[simp] theorem setMmp_free (s : State) (t p : Nat) (m : MmpPort) : (setMmp s t p m).free = s.free := rfl
@[simp] theorem setMmp_readData (s : State) (t p : Nat) (m : MmpPort) : (setMmp s t p m).readData = s.readData := rfl
@[simp] theorem setMmp_pending (s : State) (t p : Nat) (m : MmpPort) : (setMmp s t p m).pending = s.pending := rfl

@[simp] theorem setMsg_regs (s : State) (i : Nat) (m : MsgPort) : (setMsg s i m).regs = s.regs := rfl
@[simp] theorem setMsg_ex (s : State) (i : Nat) (m : MsgPort) : (setMsg s i m).ex = s.ex := rfl
@[simp] theorem setMsg_cyc (s : State) (i : Nat) (m : MsgPort) : (setMsg s i m).cyc = s.cyc := rfl
@[simp] theorem setMsg_ctl (s : State) (i : Nat) (m : MsgPort) : (setMsg s i m).ctl = s.ctl := rfl
@[simp] theorem setMsg_qs (s : State) (i : Nat) (m : MsgPort) : (setMsg s i m).qs = s.qs := rfl
@[simp] theorem setMsg_lnk (s : State) (i : Nat) (m : MsgPort) : (setMsg s i m).lnk = s.lnk := rfl
@[simp] theorem setMsg_sys (s : State) (i : Nat) (m : MsgPort) : (setMsg s i m).sys = s.sys := rfl
@[simp] theorem setMsg_sec (s : State) (i : Nat) (m : MsgPort) : (setMsg s i m).sec = s.sec := rfl
@[simp] theorem setMsg_acq (s : State) (i : Nat) (m : MsgPort) : (setMsg s i m).acq = s.acq := rfl
@[simp] theorem setMsg_trc (s : State) (i : Nat) (m : MsgPort) : (setMsg s i m).trc = s.trc := rfl
@[simp] theorem setMsg_hbm (s : State) (i : Nat) (m : MsgPort) : (setMsg s i m).hbm = s.hbm := rfl
@[simp] theorem setMsg_host (s : State) (i : Nat) (m : MsgPort) : (setMsg s i m).host = s.host := rfl
@[simp] theorem setMsg_time (s : State) (i : Nat) (m : MsgPort) : (setMsg s i m).time = s.time := rfl
@[simp] theorem setMsg_nv (s : State) (i : Nat) (m : MsgPort) : (setMsg s i m).nv = s.nv := rfl
@[simp] theorem setMsg_taf (s : State) (i : Nat) (m : MsgPort) : (setMsg s i m).taf = s.taf := rfl
@[simp] theorem setMsg_load (s : State) (i : Nat) (m : MsgPort) : (setMsg s i m).load = s.load := rfl
@[simp] theorem setMsg_pw (s : State) (i : Nat) (m : MsgPort) : (setMsg s i m).pw = s.pw := rfl
@[simp] theorem setMsg_ring (s : State) (i : Nat) (m : MsgPort) : (setMsg s i m).ring = s.ring := rfl
@[simp] theorem setMsg_sp (s : State) (i : Nat) (m : MsgPort) : (setMsg s i m).sp = s.sp := rfl
@[simp] theorem setMsg_free (s : State) (i : Nat) (m : MsgPort) : (setMsg s i m).free = s.free := rfl
@[simp] theorem setMsg_readData (s : State) (i : Nat) (m : MsgPort) : (setMsg s i m).readData = s.readData := rfl
@[simp] theorem setMsg_pending (s : State) (i : Nat) (m : MsgPort) : (setMsg s i m).pending = s.pending := rfl

@[simp] theorem setLane_regs (s : State) (n : Nat) (l : Lane) : (setLane s n l).regs = s.regs := rfl
@[simp] theorem setLane_eng (s : State) (n : Nat) (l : Lane) : (setLane s n l).eng = s.eng := rfl
@[simp] theorem setLane_ex (s : State) (n : Nat) (l : Lane) : (setLane s n l).ex = s.ex := rfl
@[simp] theorem setLane_cyc (s : State) (n : Nat) (l : Lane) : (setLane s n l).cyc = s.cyc := rfl
@[simp] theorem setLane_ctl (s : State) (n : Nat) (l : Lane) : (setLane s n l).ctl = s.ctl := rfl
@[simp] theorem setLane_qs (s : State) (n : Nat) (l : Lane) : (setLane s n l).qs = s.qs := rfl
@[simp] theorem setLane_sys (s : State) (n : Nat) (l : Lane) : (setLane s n l).sys = s.sys := rfl
@[simp] theorem setLane_sec (s : State) (n : Nat) (l : Lane) : (setLane s n l).sec = s.sec := rfl
@[simp] theorem setLane_acq (s : State) (n : Nat) (l : Lane) : (setLane s n l).acq = s.acq := rfl
@[simp] theorem setLane_trc (s : State) (n : Nat) (l : Lane) : (setLane s n l).trc = s.trc := rfl
@[simp] theorem setLane_hbm (s : State) (n : Nat) (l : Lane) : (setLane s n l).hbm = s.hbm := rfl
@[simp] theorem setLane_host (s : State) (n : Nat) (l : Lane) : (setLane s n l).host = s.host := rfl
@[simp] theorem setLane_time (s : State) (n : Nat) (l : Lane) : (setLane s n l).time = s.time := rfl
@[simp] theorem setLane_nv (s : State) (n : Nat) (l : Lane) : (setLane s n l).nv = s.nv := rfl
@[simp] theorem setLane_taf (s : State) (n : Nat) (l : Lane) : (setLane s n l).taf = s.taf := rfl
@[simp] theorem setLane_load (s : State) (n : Nat) (l : Lane) : (setLane s n l).load = s.load := rfl
@[simp] theorem setLane_pw (s : State) (n : Nat) (l : Lane) : (setLane s n l).pw = s.pw := rfl
@[simp] theorem setLane_ring (s : State) (n : Nat) (l : Lane) : (setLane s n l).ring = s.ring := rfl
@[simp] theorem setLane_sp (s : State) (n : Nat) (l : Lane) : (setLane s n l).sp = s.sp := rfl
@[simp] theorem setLane_free (s : State) (n : Nat) (l : Lane) : (setLane s n l).free = s.free := rfl
@[simp] theorem setLane_readData (s : State) (n : Nat) (l : Lane) : (setLane s n l).readData = s.readData := rfl
@[simp] theorem setLane_pending (s : State) (n : Nat) (l : Lane) : (setLane s n l).pending = s.pending := rfl

@[simp] theorem setTrunk_regs (s : State) (t : Nat) (x : Trunk) : (setTrunk s t x).regs = s.regs := rfl
@[simp] theorem setTrunk_eng (s : State) (t : Nat) (x : Trunk) : (setTrunk s t x).eng = s.eng := rfl
@[simp] theorem setTrunk_ex (s : State) (t : Nat) (x : Trunk) : (setTrunk s t x).ex = s.ex := rfl
@[simp] theorem setTrunk_cyc (s : State) (t : Nat) (x : Trunk) : (setTrunk s t x).cyc = s.cyc := rfl
@[simp] theorem setTrunk_ctl (s : State) (t : Nat) (x : Trunk) : (setTrunk s t x).ctl = s.ctl := rfl
@[simp] theorem setTrunk_qs (s : State) (t : Nat) (x : Trunk) : (setTrunk s t x).qs = s.qs := rfl
@[simp] theorem setTrunk_sys (s : State) (t : Nat) (x : Trunk) : (setTrunk s t x).sys = s.sys := rfl
@[simp] theorem setTrunk_sec (s : State) (t : Nat) (x : Trunk) : (setTrunk s t x).sec = s.sec := rfl
@[simp] theorem setTrunk_acq (s : State) (t : Nat) (x : Trunk) : (setTrunk s t x).acq = s.acq := rfl
@[simp] theorem setTrunk_trc (s : State) (t : Nat) (x : Trunk) : (setTrunk s t x).trc = s.trc := rfl
@[simp] theorem setTrunk_hbm (s : State) (t : Nat) (x : Trunk) : (setTrunk s t x).hbm = s.hbm := rfl
@[simp] theorem setTrunk_host (s : State) (t : Nat) (x : Trunk) : (setTrunk s t x).host = s.host := rfl
@[simp] theorem setTrunk_time (s : State) (t : Nat) (x : Trunk) : (setTrunk s t x).time = s.time := rfl
@[simp] theorem setTrunk_nv (s : State) (t : Nat) (x : Trunk) : (setTrunk s t x).nv = s.nv := rfl
@[simp] theorem setTrunk_taf (s : State) (t : Nat) (x : Trunk) : (setTrunk s t x).taf = s.taf := rfl
@[simp] theorem setTrunk_load (s : State) (t : Nat) (x : Trunk) : (setTrunk s t x).load = s.load := rfl
@[simp] theorem setTrunk_pw (s : State) (t : Nat) (x : Trunk) : (setTrunk s t x).pw = s.pw := rfl
@[simp] theorem setTrunk_ring (s : State) (t : Nat) (x : Trunk) : (setTrunk s t x).ring = s.ring := rfl
@[simp] theorem setTrunk_sp (s : State) (t : Nat) (x : Trunk) : (setTrunk s t x).sp = s.sp := rfl
@[simp] theorem setTrunk_free (s : State) (t : Nat) (x : Trunk) : (setTrunk s t x).free = s.free := rfl
@[simp] theorem setTrunk_readData (s : State) (t : Nat) (x : Trunk) : (setTrunk s t x).readData = s.readData := rfl
@[simp] theorem setTrunk_pending (s : State) (t : Nat) (x : Trunk) : (setTrunk s t x).pending = s.pending := rfl

@[simp] theorem setQueue_regs (s : State) (q : Nat) (x : Queue) : (setQueue s q x).regs = s.regs := rfl
@[simp] theorem setQueue_eng (s : State) (q : Nat) (x : Queue) : (setQueue s q x).eng = s.eng := rfl
@[simp] theorem setQueue_ex (s : State) (q : Nat) (x : Queue) : (setQueue s q x).ex = s.ex := rfl
@[simp] theorem setQueue_cyc (s : State) (q : Nat) (x : Queue) : (setQueue s q x).cyc = s.cyc := rfl
@[simp] theorem setQueue_ctl (s : State) (q : Nat) (x : Queue) : (setQueue s q x).ctl = s.ctl := rfl
@[simp] theorem setQueue_lnk (s : State) (q : Nat) (x : Queue) : (setQueue s q x).lnk = s.lnk := rfl
@[simp] theorem setQueue_sys (s : State) (q : Nat) (x : Queue) : (setQueue s q x).sys = s.sys := rfl
@[simp] theorem setQueue_sec (s : State) (q : Nat) (x : Queue) : (setQueue s q x).sec = s.sec := rfl
@[simp] theorem setQueue_acq (s : State) (q : Nat) (x : Queue) : (setQueue s q x).acq = s.acq := rfl
@[simp] theorem setQueue_trc (s : State) (q : Nat) (x : Queue) : (setQueue s q x).trc = s.trc := rfl
@[simp] theorem setQueue_hbm (s : State) (q : Nat) (x : Queue) : (setQueue s q x).hbm = s.hbm := rfl
@[simp] theorem setQueue_host (s : State) (q : Nat) (x : Queue) : (setQueue s q x).host = s.host := rfl
@[simp] theorem setQueue_time (s : State) (q : Nat) (x : Queue) : (setQueue s q x).time = s.time := rfl
@[simp] theorem setQueue_nv (s : State) (q : Nat) (x : Queue) : (setQueue s q x).nv = s.nv := rfl
@[simp] theorem setQueue_taf (s : State) (q : Nat) (x : Queue) : (setQueue s q x).taf = s.taf := rfl
@[simp] theorem setQueue_load (s : State) (q : Nat) (x : Queue) : (setQueue s q x).load = s.load := rfl
@[simp] theorem setQueue_pw (s : State) (q : Nat) (x : Queue) : (setQueue s q x).pw = s.pw := rfl
@[simp] theorem setQueue_ring (s : State) (q : Nat) (x : Queue) : (setQueue s q x).ring = s.ring := rfl
@[simp] theorem setQueue_sp (s : State) (q : Nat) (x : Queue) : (setQueue s q x).sp = s.sp := rfl
@[simp] theorem setQueue_free (s : State) (q : Nat) (x : Queue) : (setQueue s q x).free = s.free := rfl
@[simp] theorem setQueue_readData (s : State) (q : Nat) (x : Queue) : (setQueue s q x).readData = s.readData := rfl
@[simp] theorem setQueue_pending (s : State) (q : Nat) (x : Queue) : (setQueue s q x).pending = s.pending := rfl

@[simp] theorem setAsm_regs (s : State) (k : Nat) (r : Option Record) : (setAsm s k r).regs = s.regs := rfl
@[simp] theorem setAsm_eng (s : State) (k : Nat) (r : Option Record) : (setAsm s k r).eng = s.eng := rfl
@[simp] theorem setAsm_ex (s : State) (k : Nat) (r : Option Record) : (setAsm s k r).ex = s.ex := rfl
@[simp] theorem setAsm_cyc (s : State) (k : Nat) (r : Option Record) : (setAsm s k r).cyc = s.cyc := rfl
@[simp] theorem setAsm_ctl (s : State) (k : Nat) (r : Option Record) : (setAsm s k r).ctl = s.ctl := rfl
@[simp] theorem setAsm_lnk (s : State) (k : Nat) (r : Option Record) : (setAsm s k r).lnk = s.lnk := rfl
@[simp] theorem setAsm_sys (s : State) (k : Nat) (r : Option Record) : (setAsm s k r).sys = s.sys := rfl
@[simp] theorem setAsm_sec (s : State) (k : Nat) (r : Option Record) : (setAsm s k r).sec = s.sec := rfl
@[simp] theorem setAsm_acq (s : State) (k : Nat) (r : Option Record) : (setAsm s k r).acq = s.acq := rfl
@[simp] theorem setAsm_trc (s : State) (k : Nat) (r : Option Record) : (setAsm s k r).trc = s.trc := rfl
@[simp] theorem setAsm_hbm (s : State) (k : Nat) (r : Option Record) : (setAsm s k r).hbm = s.hbm := rfl
@[simp] theorem setAsm_host (s : State) (k : Nat) (r : Option Record) : (setAsm s k r).host = s.host := rfl
@[simp] theorem setAsm_time (s : State) (k : Nat) (r : Option Record) : (setAsm s k r).time = s.time := rfl
@[simp] theorem setAsm_nv (s : State) (k : Nat) (r : Option Record) : (setAsm s k r).nv = s.nv := rfl
@[simp] theorem setAsm_taf (s : State) (k : Nat) (r : Option Record) : (setAsm s k r).taf = s.taf := rfl
@[simp] theorem setAsm_load (s : State) (k : Nat) (r : Option Record) : (setAsm s k r).load = s.load := rfl
@[simp] theorem setAsm_pw (s : State) (k : Nat) (r : Option Record) : (setAsm s k r).pw = s.pw := rfl
@[simp] theorem setAsm_ring (s : State) (k : Nat) (r : Option Record) : (setAsm s k r).ring = s.ring := rfl
@[simp] theorem setAsm_sp (s : State) (k : Nat) (r : Option Record) : (setAsm s k r).sp = s.sp := rfl
@[simp] theorem setAsm_free (s : State) (k : Nat) (r : Option Record) : (setAsm s k r).free = s.free := rfl
@[simp] theorem setAsm_readData (s : State) (k : Nat) (r : Option Record) : (setAsm s k r).readData = s.readData := rfl
@[simp] theorem setAsm_pending (s : State) (k : Nat) (r : Option Record) : (setAsm s k r).pending = s.pending := rfl

@[simp] theorem setSnap_regs (s : State) (p slot : Nat) (x : SnapSlot) : (setSnap s p slot x).regs = s.regs := rfl
@[simp] theorem setSnap_eng (s : State) (p slot : Nat) (x : SnapSlot) : (setSnap s p slot x).eng = s.eng := rfl
@[simp] theorem setSnap_ex (s : State) (p slot : Nat) (x : SnapSlot) : (setSnap s p slot x).ex = s.ex := rfl
@[simp] theorem setSnap_cyc (s : State) (p slot : Nat) (x : SnapSlot) : (setSnap s p slot x).cyc = s.cyc := rfl
@[simp] theorem setSnap_ctl (s : State) (p slot : Nat) (x : SnapSlot) : (setSnap s p slot x).ctl = s.ctl := rfl
@[simp] theorem setSnap_qs (s : State) (p slot : Nat) (x : SnapSlot) : (setSnap s p slot x).qs = s.qs := rfl
@[simp] theorem setSnap_lnk (s : State) (p slot : Nat) (x : SnapSlot) : (setSnap s p slot x).lnk = s.lnk := rfl
@[simp] theorem setSnap_sec (s : State) (p slot : Nat) (x : SnapSlot) : (setSnap s p slot x).sec = s.sec := rfl
@[simp] theorem setSnap_acq (s : State) (p slot : Nat) (x : SnapSlot) : (setSnap s p slot x).acq = s.acq := rfl
@[simp] theorem setSnap_trc (s : State) (p slot : Nat) (x : SnapSlot) : (setSnap s p slot x).trc = s.trc := rfl
@[simp] theorem setSnap_hbm (s : State) (p slot : Nat) (x : SnapSlot) : (setSnap s p slot x).hbm = s.hbm := rfl
@[simp] theorem setSnap_host (s : State) (p slot : Nat) (x : SnapSlot) : (setSnap s p slot x).host = s.host := rfl
@[simp] theorem setSnap_time (s : State) (p slot : Nat) (x : SnapSlot) : (setSnap s p slot x).time = s.time := rfl
@[simp] theorem setSnap_nv (s : State) (p slot : Nat) (x : SnapSlot) : (setSnap s p slot x).nv = s.nv := rfl
@[simp] theorem setSnap_taf (s : State) (p slot : Nat) (x : SnapSlot) : (setSnap s p slot x).taf = s.taf := rfl
@[simp] theorem setSnap_load (s : State) (p slot : Nat) (x : SnapSlot) : (setSnap s p slot x).load = s.load := rfl
@[simp] theorem setSnap_pw (s : State) (p slot : Nat) (x : SnapSlot) : (setSnap s p slot x).pw = s.pw := rfl
@[simp] theorem setSnap_ring (s : State) (p slot : Nat) (x : SnapSlot) : (setSnap s p slot x).ring = s.ring := rfl
@[simp] theorem setSnap_sp (s : State) (p slot : Nat) (x : SnapSlot) : (setSnap s p slot x).sp = s.sp := rfl
@[simp] theorem setSnap_free (s : State) (p slot : Nat) (x : SnapSlot) : (setSnap s p slot x).free = s.free := rfl
@[simp] theorem setSnap_readData (s : State) (p slot : Nat) (x : SnapSlot) : (setSnap s p slot x).readData = s.readData := rfl
@[simp] theorem setSnap_pending (s : State) (p slot : Nat) (x : SnapSlot) : (setSnap s p slot x).pending = s.pending := rfl

@[simp] theorem setMule_regs (s : State) (src : Nat) (c : MuleCore) : (setMule s src c).regs = s.regs := rfl
@[simp] theorem setMule_eng (s : State) (src : Nat) (c : MuleCore) : (setMule s src c).eng = s.eng := rfl
@[simp] theorem setMule_ex (s : State) (src : Nat) (c : MuleCore) : (setMule s src c).ex = s.ex := rfl
@[simp] theorem setMule_cyc (s : State) (src : Nat) (c : MuleCore) : (setMule s src c).cyc = s.cyc := rfl
@[simp] theorem setMule_ctl (s : State) (src : Nat) (c : MuleCore) : (setMule s src c).ctl = s.ctl := rfl
@[simp] theorem setMule_qs (s : State) (src : Nat) (c : MuleCore) : (setMule s src c).qs = s.qs := rfl
@[simp] theorem setMule_lnk (s : State) (src : Nat) (c : MuleCore) : (setMule s src c).lnk = s.lnk := rfl
@[simp] theorem setMule_sys (s : State) (src : Nat) (c : MuleCore) : (setMule s src c).sys = s.sys := rfl
@[simp] theorem setMule_sec (s : State) (src : Nat) (c : MuleCore) : (setMule s src c).sec = s.sec := rfl
@[simp] theorem setMule_acq (s : State) (src : Nat) (c : MuleCore) : (setMule s src c).acq = s.acq := rfl
@[simp] theorem setMule_hbm (s : State) (src : Nat) (c : MuleCore) : (setMule s src c).hbm = s.hbm := rfl
@[simp] theorem setMule_host (s : State) (src : Nat) (c : MuleCore) : (setMule s src c).host = s.host := rfl
@[simp] theorem setMule_time (s : State) (src : Nat) (c : MuleCore) : (setMule s src c).time = s.time := rfl
@[simp] theorem setMule_nv (s : State) (src : Nat) (c : MuleCore) : (setMule s src c).nv = s.nv := rfl
@[simp] theorem setMule_taf (s : State) (src : Nat) (c : MuleCore) : (setMule s src c).taf = s.taf := rfl
@[simp] theorem setMule_load (s : State) (src : Nat) (c : MuleCore) : (setMule s src c).load = s.load := rfl
@[simp] theorem setMule_pw (s : State) (src : Nat) (c : MuleCore) : (setMule s src c).pw = s.pw := rfl
@[simp] theorem setMule_ring (s : State) (src : Nat) (c : MuleCore) : (setMule s src c).ring = s.ring := rfl
@[simp] theorem setMule_sp (s : State) (src : Nat) (c : MuleCore) : (setMule s src c).sp = s.sp := rfl
@[simp] theorem setMule_free (s : State) (src : Nat) (c : MuleCore) : (setMule s src c).free = s.free := rfl
@[simp] theorem setMule_readData (s : State) (src : Nat) (c : MuleCore) : (setMule s src c).readData = s.readData := rfl
@[simp] theorem setMule_pending (s : State) (src : Nat) (c : MuleCore) : (setMule s src c).pending = s.pending := rfl

@[simp] theorem hostAsk_regs (s : State) (fn : Nat) : (hostAsk s fn).regs = s.regs := rfl
@[simp] theorem hostAsk_eng (s : State) (fn : Nat) : (hostAsk s fn).eng = s.eng := rfl
@[simp] theorem hostAsk_ex (s : State) (fn : Nat) : (hostAsk s fn).ex = s.ex := rfl
@[simp] theorem hostAsk_cyc (s : State) (fn : Nat) : (hostAsk s fn).cyc = s.cyc := rfl
@[simp] theorem hostAsk_ctl (s : State) (fn : Nat) : (hostAsk s fn).ctl = s.ctl := rfl
@[simp] theorem hostAsk_lnk (s : State) (fn : Nat) : (hostAsk s fn).lnk = s.lnk := rfl
@[simp] theorem hostAsk_sys (s : State) (fn : Nat) : (hostAsk s fn).sys = s.sys := rfl
@[simp] theorem hostAsk_sec (s : State) (fn : Nat) : (hostAsk s fn).sec = s.sec := rfl
@[simp] theorem hostAsk_acq (s : State) (fn : Nat) : (hostAsk s fn).acq = s.acq := rfl
@[simp] theorem hostAsk_trc (s : State) (fn : Nat) : (hostAsk s fn).trc = s.trc := rfl
@[simp] theorem hostAsk_hbm (s : State) (fn : Nat) : (hostAsk s fn).hbm = s.hbm := rfl
@[simp] theorem hostAsk_host (s : State) (fn : Nat) : (hostAsk s fn).host = s.host := rfl
@[simp] theorem hostAsk_time (s : State) (fn : Nat) : (hostAsk s fn).time = s.time := rfl
@[simp] theorem hostAsk_nv (s : State) (fn : Nat) : (hostAsk s fn).nv = s.nv := rfl
@[simp] theorem hostAsk_taf (s : State) (fn : Nat) : (hostAsk s fn).taf = s.taf := rfl
@[simp] theorem hostAsk_load (s : State) (fn : Nat) : (hostAsk s fn).load = s.load := rfl
@[simp] theorem hostAsk_pw (s : State) (fn : Nat) : (hostAsk s fn).pw = s.pw := rfl
@[simp] theorem hostAsk_ring (s : State) (fn : Nat) : (hostAsk s fn).ring = s.ring := rfl
@[simp] theorem hostAsk_sp (s : State) (fn : Nat) : (hostAsk s fn).sp = s.sp := rfl
@[simp] theorem hostAsk_free (s : State) (fn : Nat) : (hostAsk s fn).free = s.free := rfl
@[simp] theorem hostAsk_readData (s : State) (fn : Nat) : (hostAsk s fn).readData = s.readData := rfl
@[simp] theorem hostAsk_pending (s : State) (fn : Nat) : (hostAsk s fn).pending = s.pending := rfl

@[simp] theorem hostWrite_regs (s : State) (fn a n v : Nat) : (hostWrite s fn a n v).regs = s.regs := rfl
@[simp] theorem hostWrite_eng (s : State) (fn a n v : Nat) : (hostWrite s fn a n v).eng = s.eng := rfl
@[simp] theorem hostWrite_ex (s : State) (fn a n v : Nat) : (hostWrite s fn a n v).ex = s.ex := rfl
@[simp] theorem hostWrite_cyc (s : State) (fn a n v : Nat) : (hostWrite s fn a n v).cyc = s.cyc := rfl
@[simp] theorem hostWrite_ctl (s : State) (fn a n v : Nat) : (hostWrite s fn a n v).ctl = s.ctl := rfl
@[simp] theorem hostWrite_lnk (s : State) (fn a n v : Nat) : (hostWrite s fn a n v).lnk = s.lnk := rfl
@[simp] theorem hostWrite_sys (s : State) (fn a n v : Nat) : (hostWrite s fn a n v).sys = s.sys := rfl
@[simp] theorem hostWrite_sec (s : State) (fn a n v : Nat) : (hostWrite s fn a n v).sec = s.sec := rfl
@[simp] theorem hostWrite_acq (s : State) (fn a n v : Nat) : (hostWrite s fn a n v).acq = s.acq := rfl
@[simp] theorem hostWrite_trc (s : State) (fn a n v : Nat) : (hostWrite s fn a n v).trc = s.trc := rfl
@[simp] theorem hostWrite_hbm (s : State) (fn a n v : Nat) : (hostWrite s fn a n v).hbm = s.hbm := rfl
@[simp] theorem hostWrite_time (s : State) (fn a n v : Nat) : (hostWrite s fn a n v).time = s.time := rfl
@[simp] theorem hostWrite_nv (s : State) (fn a n v : Nat) : (hostWrite s fn a n v).nv = s.nv := rfl
@[simp] theorem hostWrite_taf (s : State) (fn a n v : Nat) : (hostWrite s fn a n v).taf = s.taf := rfl
@[simp] theorem hostWrite_load (s : State) (fn a n v : Nat) : (hostWrite s fn a n v).load = s.load := rfl
@[simp] theorem hostWrite_pw (s : State) (fn a n v : Nat) : (hostWrite s fn a n v).pw = s.pw := rfl
@[simp] theorem hostWrite_ring (s : State) (fn a n v : Nat) : (hostWrite s fn a n v).ring = s.ring := rfl
@[simp] theorem hostWrite_sp (s : State) (fn a n v : Nat) : (hostWrite s fn a n v).sp = s.sp := rfl
@[simp] theorem hostWrite_free (s : State) (fn a n v : Nat) : (hostWrite s fn a n v).free = s.free := rfl
@[simp] theorem hostWrite_readData (s : State) (fn a n v : Nat) : (hostWrite s fn a n v).readData = s.readData := rfl
@[simp] theorem hostWrite_pending (s : State) (fn a n v : Nat) : (hostWrite s fn a n v).pending = s.pending := rfl

@[simp] theorem hostWriteList_regs (s : State) (fn a : Nat) (l : List Byte) : (hostWriteList s fn a l).regs = s.regs := rfl
@[simp] theorem hostWriteList_eng (s : State) (fn a : Nat) (l : List Byte) : (hostWriteList s fn a l).eng = s.eng := rfl
@[simp] theorem hostWriteList_ex (s : State) (fn a : Nat) (l : List Byte) : (hostWriteList s fn a l).ex = s.ex := rfl
@[simp] theorem hostWriteList_cyc (s : State) (fn a : Nat) (l : List Byte) : (hostWriteList s fn a l).cyc = s.cyc := rfl
@[simp] theorem hostWriteList_ctl (s : State) (fn a : Nat) (l : List Byte) : (hostWriteList s fn a l).ctl = s.ctl := rfl
@[simp] theorem hostWriteList_lnk (s : State) (fn a : Nat) (l : List Byte) : (hostWriteList s fn a l).lnk = s.lnk := rfl
@[simp] theorem hostWriteList_sys (s : State) (fn a : Nat) (l : List Byte) : (hostWriteList s fn a l).sys = s.sys := rfl
@[simp] theorem hostWriteList_sec (s : State) (fn a : Nat) (l : List Byte) : (hostWriteList s fn a l).sec = s.sec := rfl
@[simp] theorem hostWriteList_acq (s : State) (fn a : Nat) (l : List Byte) : (hostWriteList s fn a l).acq = s.acq := rfl
@[simp] theorem hostWriteList_trc (s : State) (fn a : Nat) (l : List Byte) : (hostWriteList s fn a l).trc = s.trc := rfl
@[simp] theorem hostWriteList_hbm (s : State) (fn a : Nat) (l : List Byte) : (hostWriteList s fn a l).hbm = s.hbm := rfl
@[simp] theorem hostWriteList_time (s : State) (fn a : Nat) (l : List Byte) : (hostWriteList s fn a l).time = s.time := rfl
@[simp] theorem hostWriteList_nv (s : State) (fn a : Nat) (l : List Byte) : (hostWriteList s fn a l).nv = s.nv := rfl
@[simp] theorem hostWriteList_taf (s : State) (fn a : Nat) (l : List Byte) : (hostWriteList s fn a l).taf = s.taf := rfl
@[simp] theorem hostWriteList_load (s : State) (fn a : Nat) (l : List Byte) : (hostWriteList s fn a l).load = s.load := rfl
@[simp] theorem hostWriteList_pw (s : State) (fn a : Nat) (l : List Byte) : (hostWriteList s fn a l).pw = s.pw := rfl
@[simp] theorem hostWriteList_ring (s : State) (fn a : Nat) (l : List Byte) : (hostWriteList s fn a l).ring = s.ring := rfl
@[simp] theorem hostWriteList_sp (s : State) (fn a : Nat) (l : List Byte) : (hostWriteList s fn a l).sp = s.sp := rfl
@[simp] theorem hostWriteList_free (s : State) (fn a : Nat) (l : List Byte) : (hostWriteList s fn a l).free = s.free := rfl
@[simp] theorem hostWriteList_readData (s : State) (fn a : Nat) (l : List Byte) : (hostWriteList s fn a l).readData = s.readData := rfl
@[simp] theorem hostWriteList_pending (s : State) (fn a : Nat) (l : List Byte) : (hostWriteList s fn a l).pending = s.pending := rfl

@[simp] theorem setEth_regs (s : State) (e : Eth) : (setEth s e).regs = s.regs := rfl
@[simp] theorem setEth_eng (s : State) (e : Eth) : (setEth s e).eng = s.eng := rfl
@[simp] theorem setEth_ex (s : State) (e : Eth) : (setEth s e).ex = s.ex := rfl
@[simp] theorem setEth_cyc (s : State) (e : Eth) : (setEth s e).cyc = s.cyc := rfl
@[simp] theorem setEth_qs (s : State) (e : Eth) : (setEth s e).qs = s.qs := rfl
@[simp] theorem setEth_lnk (s : State) (e : Eth) : (setEth s e).lnk = s.lnk := rfl
@[simp] theorem setEth_sys (s : State) (e : Eth) : (setEth s e).sys = s.sys := rfl
@[simp] theorem setEth_sec (s : State) (e : Eth) : (setEth s e).sec = s.sec := rfl
@[simp] theorem setEth_acq (s : State) (e : Eth) : (setEth s e).acq = s.acq := rfl
@[simp] theorem setEth_trc (s : State) (e : Eth) : (setEth s e).trc = s.trc := rfl
@[simp] theorem setEth_hbm (s : State) (e : Eth) : (setEth s e).hbm = s.hbm := rfl
@[simp] theorem setEth_host (s : State) (e : Eth) : (setEth s e).host = s.host := rfl
@[simp] theorem setEth_time (s : State) (e : Eth) : (setEth s e).time = s.time := rfl
@[simp] theorem setEth_nv (s : State) (e : Eth) : (setEth s e).nv = s.nv := rfl
@[simp] theorem setEth_taf (s : State) (e : Eth) : (setEth s e).taf = s.taf := rfl
@[simp] theorem setEth_load (s : State) (e : Eth) : (setEth s e).load = s.load := rfl
@[simp] theorem setEth_pw (s : State) (e : Eth) : (setEth s e).pw = s.pw := rfl
@[simp] theorem setEth_ring (s : State) (e : Eth) : (setEth s e).ring = s.ring := rfl
@[simp] theorem setEth_sp (s : State) (e : Eth) : (setEth s e).sp = s.sp := rfl
@[simp] theorem setEth_free (s : State) (e : Eth) : (setEth s e).free = s.free := rfl
@[simp] theorem setEth_readData (s : State) (e : Eth) : (setEth s e).readData = s.readData := rfl
@[simp] theorem setEth_pending (s : State) (e : Eth) : (setEth s e).pending = s.pending := rfl

@[simp] theorem setHeld_eng (s : State) (r : Nat) (l : List (List Byte × Bool)) : (setHeld s r l).eng = s.eng := rfl
@[simp] theorem setHeld_ex (s : State) (r : Nat) (l : List (List Byte × Bool)) : (setHeld s r l).ex = s.ex := rfl
@[simp] theorem setHeld_cyc (s : State) (r : Nat) (l : List (List Byte × Bool)) : (setHeld s r l).cyc = s.cyc := rfl
@[simp] theorem setHeld_qs (s : State) (r : Nat) (l : List (List Byte × Bool)) : (setHeld s r l).qs = s.qs := rfl
@[simp] theorem setHeld_lnk (s : State) (r : Nat) (l : List (List Byte × Bool)) : (setHeld s r l).lnk = s.lnk := rfl
@[simp] theorem setHeld_sys (s : State) (r : Nat) (l : List (List Byte × Bool)) : (setHeld s r l).sys = s.sys := rfl
@[simp] theorem setHeld_sec (s : State) (r : Nat) (l : List (List Byte × Bool)) : (setHeld s r l).sec = s.sec := rfl
@[simp] theorem setHeld_acq (s : State) (r : Nat) (l : List (List Byte × Bool)) : (setHeld s r l).acq = s.acq := rfl
@[simp] theorem setHeld_trc (s : State) (r : Nat) (l : List (List Byte × Bool)) : (setHeld s r l).trc = s.trc := rfl
@[simp] theorem setHeld_hbm (s : State) (r : Nat) (l : List (List Byte × Bool)) : (setHeld s r l).hbm = s.hbm := rfl
@[simp] theorem setHeld_host (s : State) (r : Nat) (l : List (List Byte × Bool)) : (setHeld s r l).host = s.host := rfl
@[simp] theorem setHeld_time (s : State) (r : Nat) (l : List (List Byte × Bool)) : (setHeld s r l).time = s.time := rfl
@[simp] theorem setHeld_nv (s : State) (r : Nat) (l : List (List Byte × Bool)) : (setHeld s r l).nv = s.nv := rfl
@[simp] theorem setHeld_taf (s : State) (r : Nat) (l : List (List Byte × Bool)) : (setHeld s r l).taf = s.taf := rfl
@[simp] theorem setHeld_load (s : State) (r : Nat) (l : List (List Byte × Bool)) : (setHeld s r l).load = s.load := rfl
@[simp] theorem setHeld_pw (s : State) (r : Nat) (l : List (List Byte × Bool)) : (setHeld s r l).pw = s.pw := rfl
@[simp] theorem setHeld_ring (s : State) (r : Nat) (l : List (List Byte × Bool)) : (setHeld s r l).ring = s.ring := rfl
@[simp] theorem setHeld_sp (s : State) (r : Nat) (l : List (List Byte × Bool)) : (setHeld s r l).sp = s.sp := rfl
@[simp] theorem setHeld_free (s : State) (r : Nat) (l : List (List Byte × Bool)) : (setHeld s r l).free = s.free := rfl
@[simp] theorem setHeld_readData (s : State) (r : Nat) (l : List (List Byte × Bool)) : (setHeld s r l).readData = s.readData := rfl
@[simp] theorem setHeld_pending (s : State) (r : Nat) (l : List (List Byte × Bool)) : (setHeld s r l).pending = s.pending := rfl

@[simp] theorem setFifo_regs (s : State) (f : Nat) (l : List Nat) : (setFifo s f l).regs = s.regs := rfl
@[simp] theorem setFifo_eng (s : State) (f : Nat) (l : List Nat) : (setFifo s f l).eng = s.eng := rfl
@[simp] theorem setFifo_ex (s : State) (f : Nat) (l : List Nat) : (setFifo s f l).ex = s.ex := rfl
@[simp] theorem setFifo_cyc (s : State) (f : Nat) (l : List Nat) : (setFifo s f l).cyc = s.cyc := rfl
@[simp] theorem setFifo_ctl (s : State) (f : Nat) (l : List Nat) : (setFifo s f l).ctl = s.ctl := rfl
@[simp] theorem setFifo_qs (s : State) (f : Nat) (l : List Nat) : (setFifo s f l).qs = s.qs := rfl
@[simp] theorem setFifo_lnk (s : State) (f : Nat) (l : List Nat) : (setFifo s f l).lnk = s.lnk := rfl
@[simp] theorem setFifo_sys (s : State) (f : Nat) (l : List Nat) : (setFifo s f l).sys = s.sys := rfl
@[simp] theorem setFifo_sec (s : State) (f : Nat) (l : List Nat) : (setFifo s f l).sec = s.sec := rfl
@[simp] theorem setFifo_acq (s : State) (f : Nat) (l : List Nat) : (setFifo s f l).acq = s.acq := rfl
@[simp] theorem setFifo_trc (s : State) (f : Nat) (l : List Nat) : (setFifo s f l).trc = s.trc := rfl
@[simp] theorem setFifo_hbm (s : State) (f : Nat) (l : List Nat) : (setFifo s f l).hbm = s.hbm := rfl
@[simp] theorem setFifo_host (s : State) (f : Nat) (l : List Nat) : (setFifo s f l).host = s.host := rfl
@[simp] theorem setFifo_time (s : State) (f : Nat) (l : List Nat) : (setFifo s f l).time = s.time := rfl
@[simp] theorem setFifo_nv (s : State) (f : Nat) (l : List Nat) : (setFifo s f l).nv = s.nv := rfl
@[simp] theorem setFifo_load (s : State) (f : Nat) (l : List Nat) : (setFifo s f l).load = s.load := rfl
@[simp] theorem setFifo_pw (s : State) (f : Nat) (l : List Nat) : (setFifo s f l).pw = s.pw := rfl
@[simp] theorem setFifo_ring (s : State) (f : Nat) (l : List Nat) : (setFifo s f l).ring = s.ring := rfl
@[simp] theorem setFifo_sp (s : State) (f : Nat) (l : List Nat) : (setFifo s f l).sp = s.sp := rfl
@[simp] theorem setFifo_free (s : State) (f : Nat) (l : List Nat) : (setFifo s f l).free = s.free := rfl
@[simp] theorem setFifo_readData (s : State) (f : Nat) (l : List Nat) : (setFifo s f l).readData = s.readData := rfl
@[simp] theorem setFifo_pending (s : State) (f : Nat) (l : List Nat) : (setFifo s f l).pending = s.pending := rfl

@[simp] theorem setSwitch_regs (s : State) (clk : Nat) (m : Option MuxSwitch) : (setSwitch s clk m).regs = s.regs := rfl
@[simp] theorem setSwitch_eng (s : State) (clk : Nat) (m : Option MuxSwitch) : (setSwitch s clk m).eng = s.eng := rfl
@[simp] theorem setSwitch_ex (s : State) (clk : Nat) (m : Option MuxSwitch) : (setSwitch s clk m).ex = s.ex := rfl
@[simp] theorem setSwitch_cyc (s : State) (clk : Nat) (m : Option MuxSwitch) : (setSwitch s clk m).cyc = s.cyc := rfl
@[simp] theorem setSwitch_ctl (s : State) (clk : Nat) (m : Option MuxSwitch) : (setSwitch s clk m).ctl = s.ctl := rfl
@[simp] theorem setSwitch_qs (s : State) (clk : Nat) (m : Option MuxSwitch) : (setSwitch s clk m).qs = s.qs := rfl
@[simp] theorem setSwitch_lnk (s : State) (clk : Nat) (m : Option MuxSwitch) : (setSwitch s clk m).lnk = s.lnk := rfl
@[simp] theorem setSwitch_sys (s : State) (clk : Nat) (m : Option MuxSwitch) : (setSwitch s clk m).sys = s.sys := rfl
@[simp] theorem setSwitch_sec (s : State) (clk : Nat) (m : Option MuxSwitch) : (setSwitch s clk m).sec = s.sec := rfl
@[simp] theorem setSwitch_acq (s : State) (clk : Nat) (m : Option MuxSwitch) : (setSwitch s clk m).acq = s.acq := rfl
@[simp] theorem setSwitch_trc (s : State) (clk : Nat) (m : Option MuxSwitch) : (setSwitch s clk m).trc = s.trc := rfl
@[simp] theorem setSwitch_hbm (s : State) (clk : Nat) (m : Option MuxSwitch) : (setSwitch s clk m).hbm = s.hbm := rfl
@[simp] theorem setSwitch_host (s : State) (clk : Nat) (m : Option MuxSwitch) : (setSwitch s clk m).host = s.host := rfl
@[simp] theorem setSwitch_time (s : State) (clk : Nat) (m : Option MuxSwitch) : (setSwitch s clk m).time = s.time := rfl
@[simp] theorem setSwitch_nv (s : State) (clk : Nat) (m : Option MuxSwitch) : (setSwitch s clk m).nv = s.nv := rfl
@[simp] theorem setSwitch_load (s : State) (clk : Nat) (m : Option MuxSwitch) : (setSwitch s clk m).load = s.load := rfl
@[simp] theorem setSwitch_pw (s : State) (clk : Nat) (m : Option MuxSwitch) : (setSwitch s clk m).pw = s.pw := rfl
@[simp] theorem setSwitch_ring (s : State) (clk : Nat) (m : Option MuxSwitch) : (setSwitch s clk m).ring = s.ring := rfl
@[simp] theorem setSwitch_sp (s : State) (clk : Nat) (m : Option MuxSwitch) : (setSwitch s clk m).sp = s.sp := rfl
@[simp] theorem setSwitch_free (s : State) (clk : Nat) (m : Option MuxSwitch) : (setSwitch s clk m).free = s.free := rfl
@[simp] theorem setSwitch_readData (s : State) (clk : Nat) (m : Option MuxSwitch) : (setSwitch s clk m).readData = s.readData := rfl
@[simp] theorem setSwitch_pending (s : State) (clk : Nat) (m : Option MuxSwitch) : (setSwitch s clk m).pending = s.pending := rfl

/-! ## What is read back -/

@[simp] theorem laneAt_setLane_same (s : State) (n : Nat) (l : Lane) : laneAt (setLane s n l) n = l := mget_mset_same _ _ _ _
theorem laneAt_setLane_ne (s : State) {n m : Nat} (l : Lane) (h : m ≠ n) : laneAt (setLane s n l) m = laneAt s m := mget_mset_ne _ _ _ _ h
@[simp] theorem trunkAt_setTrunk_same (s : State) (t : Nat) (x : Trunk) : trunkAt (setTrunk s t x) t = x := mget_mset_same _ _ _ _
theorem trunkAt_setTrunk_ne (s : State) {t u : Nat} (x : Trunk) (h : u ≠ t) : trunkAt (setTrunk s t x) u = trunkAt s u := mget_mset_ne _ _ _ _ h
@[simp] theorem trunkAt_setLane (s : State) (n t : Nat) (l : Lane) : trunkAt (setLane s n l) t = trunkAt s t := rfl
@[simp] theorem laneAt_setTrunk (s : State) (n t : Nat) (x : Trunk) : laneAt (setTrunk s t x) n = laneAt s n := rfl
@[simp] theorem queueAt_setQueue_same (s : State) (q : Nat) (x : Queue) : queueAt (setQueue s q x) q = x := mget_mset_same _ _ _ _
theorem queueAt_setQueue_ne (s : State) {q r : Nat} (x : Queue) (h : r ≠ q) : queueAt (setQueue s q x) r = queueAt s r := mget_mset_ne _ _ _ _ h
@[simp] theorem msgAt_setMsg_same (s : State) (i : Nat) (m : MsgPort) : msgAt (setMsg s i m) i = m := mget_mset_same _ _ _ _
theorem msgAt_setMsg_ne (s : State) {i j : Nat} (m : MsgPort) (h : j ≠ i) : msgAt (setMsg s i m) j = msgAt s j := mget_mset_ne _ _ _ _ h
@[simp] theorem mmpAt_setMmp_same (s : State) (t p : Nat) (m : MmpPort) : mmpAt (setMmp s t p m) t p = m := mget_mset_same _ _ _ _
@[simp] theorem halfOf_setHalf_same (s : State) (pc : Nat) (half : Bool) (h : Half) : halfOf (setHalf s pc half h) pc half = h :=
  mget_mset_same _ _ _ _
@[simp] theorem snapAt_setSnap_same (s : State) (p slot : Nat) (x : SnapSlot) : snapAt (setSnap s p slot x) p slot = x := mget_mset_same _ _ _ _
@[simp] theorem muleAt_setMule_same (s : State) (src : Nat) (c : MuleCore) : muleAt (setMule s src c) src = c := mget_mset_same _ _ _ _
@[simp] theorem heldOf_setHeld_same (s : State) (r : Nat) (l : List (List Byte × Bool)) : heldOf (setHeld s r l) r = l := mget_mset_same _ _ _ _
@[simp] theorem flag_setHeld (s : State) (r : Nat) (l : List (List Byte × Bool)) : flag (setHeld s r l) (CR_HELD r) = !l.isEmpty :=
  flag_setFlag_same _ _ _ rfl

/-! ## What a reply can change (R452, R457) -/

/-- A reply that goes into a completion ring writes host memory, registers of the ring and the vectors. -/
theorem writeReply_frame (s : State) (r : Nat) (b : List Byte) (e : Bool) :
    { writeReply s r b e with regs := s.regs, ctl := s.ctl, host := s.host, qs := s.qs } = s := by
  unfold writeReply
  split
  · exact (congrArg (fun x : State => { x with regs := s.regs, host := s.host, qs := s.qs }) (raiseEv_frame _ _) :)
  · rfl

theorem ringReply_frame (s : State) (r : Nat) (b : List Byte) (e : Bool) :
    { ringReply s r b e with regs := s.regs, ctl := s.ctl, host := s.host, qs := s.qs } = s := by
  unfold ringReply
  split
  · rfl
  · split
    · exact writeReply_frame s r b e
    · rfl

/-- A reply changes registers, the control fabric, host memory and the requester ID of the latest DMA, whatever its transport. -/
theorem sendReply_frame (s : State) (via : Via) (op tag status : Nat) (l : List Byte) (e : Bool) :
    { sendReply s via op tag status l e with regs := s.regs, ctl := s.ctl, host := s.host, qs := s.qs } = s := by
  unfold sendReply
  cases via with
  | ring r =>
    dsimp only
    split
    · rfl
    · split
      · exact (congrArg (fun x : State => { x with regs := s.regs }) (ringReply_frame (addF s (CR_REJECTS r) 1) r _ _) :)
      · exact ringReply_frame s r _ _
  | smbus => rfl
  | ethernet => rfl
  | gone => rfl

@[simp] theorem sendReply_eng (s : State) (via : Via) (op tag status : Nat) (l : List Byte) (e : Bool) : (sendReply s via op tag status l e).eng = s.eng := (congrArg State.eng (sendReply_frame s via op tag status l e) :)
@[simp] theorem sendReply_ex (s : State) (via : Via) (op tag status : Nat) (l : List Byte) (e : Bool) : (sendReply s via op tag status l e).ex = s.ex := (congrArg State.ex (sendReply_frame s via op tag status l e) :)
@[simp] theorem sendReply_cyc (s : State) (via : Via) (op tag status : Nat) (l : List Byte) (e : Bool) : (sendReply s via op tag status l e).cyc = s.cyc := (congrArg State.cyc (sendReply_frame s via op tag status l e) :)
@[simp] theorem sendReply_lnk (s : State) (via : Via) (op tag status : Nat) (l : List Byte) (e : Bool) : (sendReply s via op tag status l e).lnk = s.lnk := (congrArg State.lnk (sendReply_frame s via op tag status l e) :)
@[simp] theorem sendReply_sys (s : State) (via : Via) (op tag status : Nat) (l : List Byte) (e : Bool) : (sendReply s via op tag status l e).sys = s.sys := (congrArg State.sys (sendReply_frame s via op tag status l e) :)
@[simp] theorem sendReply_sec (s : State) (via : Via) (op tag status : Nat) (l : List Byte) (e : Bool) : (sendReply s via op tag status l e).sec = s.sec := (congrArg State.sec (sendReply_frame s via op tag status l e) :)
@[simp] theorem sendReply_acq (s : State) (via : Via) (op tag status : Nat) (l : List Byte) (e : Bool) : (sendReply s via op tag status l e).acq = s.acq := (congrArg State.acq (sendReply_frame s via op tag status l e) :)
@[simp] theorem sendReply_trc (s : State) (via : Via) (op tag status : Nat) (l : List Byte) (e : Bool) : (sendReply s via op tag status l e).trc = s.trc := (congrArg State.trc (sendReply_frame s via op tag status l e) :)
@[simp] theorem sendReply_hbm (s : State) (via : Via) (op tag status : Nat) (l : List Byte) (e : Bool) : (sendReply s via op tag status l e).hbm = s.hbm := (congrArg State.hbm (sendReply_frame s via op tag status l e) :)
@[simp] theorem sendReply_time (s : State) (via : Via) (op tag status : Nat) (l : List Byte) (e : Bool) : (sendReply s via op tag status l e).time = s.time := (congrArg State.time (sendReply_frame s via op tag status l e) :)
@[simp] theorem sendReply_nv (s : State) (via : Via) (op tag status : Nat) (l : List Byte) (e : Bool) : (sendReply s via op tag status l e).nv = s.nv := (congrArg State.nv (sendReply_frame s via op tag status l e) :)
@[simp] theorem sendReply_taf (s : State) (via : Via) (op tag status : Nat) (l : List Byte) (e : Bool) : (sendReply s via op tag status l e).taf = s.taf := (congrArg State.taf (sendReply_frame s via op tag status l e) :)
@[simp] theorem sendReply_load (s : State) (via : Via) (op tag status : Nat) (l : List Byte) (e : Bool) : (sendReply s via op tag status l e).load = s.load := (congrArg State.load (sendReply_frame s via op tag status l e) :)
@[simp] theorem sendReply_pw (s : State) (via : Via) (op tag status : Nat) (l : List Byte) (e : Bool) : (sendReply s via op tag status l e).pw = s.pw := (congrArg State.pw (sendReply_frame s via op tag status l e) :)
@[simp] theorem sendReply_ring (s : State) (via : Via) (op tag status : Nat) (l : List Byte) (e : Bool) : (sendReply s via op tag status l e).ring = s.ring := (congrArg State.ring (sendReply_frame s via op tag status l e) :)
@[simp] theorem sendReply_sp (s : State) (via : Via) (op tag status : Nat) (l : List Byte) (e : Bool) : (sendReply s via op tag status l e).sp = s.sp := (congrArg State.sp (sendReply_frame s via op tag status l e) :)
@[simp] theorem sendReply_free (s : State) (via : Via) (op tag status : Nat) (l : List Byte) (e : Bool) : (sendReply s via op tag status l e).free = s.free := (congrArg State.free (sendReply_frame s via op tag status l e) :)
@[simp] theorem sendReply_readData (s : State) (via : Via) (op tag status : Nat) (l : List Byte) (e : Bool) : (sendReply s via op tag status l e).readData = s.readData := (congrArg State.readData (sendReply_frame s via op tag status l e) :)
@[simp] theorem sendReply_pending (s : State) (via : Via) (op tag status : Nat) (l : List Byte) (e : Bool) : (sendReply s via op tag status l e).pending = s.pending := (congrArg State.pending (sendReply_frame s via op tag status l e) :)

end Sys2Proof.Machine
end

