-- ==== Sys2Proof/WellFormed.lean ====
section
/-!
DEFINITION. Which commands are well formed: operands that name something the device has. A meaning does not depend on it: a command
that names something else finds nothing to act on.
-/
namespace Sys2Proof

/-- A lane, a trunk or an exchange module: there are 96 of each (R107, R279, R280). -/
def laneWf (n : BitVec 7) : Bool := decide (n.toNat < 96)

/-- A command ring or a PCIe function: there are 17 of each (R338, R453). -/
def ringWf (r : BitVec 5) : Bool := decide (r.toNat ≤ 16)

/-- A register access is aligned to its size and comes from a function that exists (R15, R338). -/
def Access.wf (a : Access) : Bool := a.off.toNat % (if a.wide then 8 else 4) == 0 && ringWf a.fn

/-- A scratchpad access is aligned to its size (R484). -/
def SpAccess.wf (a : SpAccess) : Bool := a.off.toNat % (if a.wide then 8 else 4) == 0

/-- A flit arrives on a lane that exists. -/
def Rx.wf (x : Rx) : Bool := laneWf x.lane

/-- CSUB of a CTRL payload (R288). -/
def Rx.csub (x : Rx) : Nat := x.payload.toNat % 256

/-- A flit with a reserved TYPE or CSUB (R288, R289). -/
def Rx.reserved (x : Rx) : Bool :=
  x.type == 0 || decide (6 < x.type.toNat)
    || (x.type == 4 && !([0x01, 0x02, 0x10, 0x40, 0x41, 0x42, 0x43, 0x44, 0x45].contains x.csub))

/-- An unsequenced flit comes under its own name, with SEQ 0 (R287). -/
def Rx.unseq (x : Rx) (type : Byte) : Bool := x.wf && x.type == type && x.seq == 0

/-- A CTRL flit of a subtype. -/
def Rx.ctrl (x : Rx) (csub : Nat) : Bool := x.type == 4 && x.csub == csub

/-- A system message or cycle report comes under its own name; a reserved flit may come under any sequenced one. -/
def Rx.system (x : Rx) (csub : Nat) : Bool := x.wf && (x.ctrl csub || x.reserved)
def Rx.striped (x : Rx) (type : Byte) : Bool := x.wf && (x.type == type || x.reserved)

/-- One of the six fall-back blocks (R415). -/
def fallbackWf (k : BitVec 3) : Bool := decide (k.toNat < 6)

/-- An input pin of the adapter fabric: 256 TIO and 64 LVDS pairs of 8 bits (R410). -/
def pinWf (n : BitVec 10) : Bool := decide (n.toNat < 768)

/-- A rail of RAIL_PGOOD (R521). -/
def railWf (n : BitVec 5) : Bool := decide (n.toNat ≤ 22)

/-- A reference clock (R531). -/
def refclkWf (n : BitVec 4) : Bool := decide (n.toNat ≤ 8)

/-- A receive slot of a cluster (R42). -/
def recvWf (n : BitVec 9) : Bool := decide (n.toNat < 448)

/-- A command is well formed. -/
def Instr.wf (i : Instr) : Bool :=
  match i with
  | .tick _ => true
  | .nop _ => true
  | .eval _ => true
  | .evalm _ => true
  | .lds _ => true
  | .sts _ => true
  | .mpaAddress _ => true
  | .mpaData _ => true
  | .mpgRead _ => true
  | .mpgWrite _ => true
  | .mpr _ => true
  | .msr _ => true
  | .msw _ => true
  | .mspPop _ => true
  | .mspPush _ => true
  | .chk _ => true
  | .stopc _ => true
  | .tpo _ => true
  | .tpi _ => true
  | .illegalOp _ => true
  | .speculativeDecision _ _ _ => true
  | .valueRecord _ rslot => recvWf rslot
  | .creditRecord _ _ => true
  | .frameClose m _ _ => laneWf m
  | .exchangeFrame m _ => laneWf m
  | .bridgeDown m => laneWf m
  | .dieDone _ => true
  | .commitPhase _ => true
  | .holdPortPush _ _ => true
  | .commitStall => true
  | .deadlock _ => true
  | .pacedInstant _ _ => true
  | .pllRelock => true
  | .mmpRequestTake _ _ => true
  | .mmpResult _ _ _ _ => true
  | .seqCtrlRun => true
  | .seqCtrlStop => true
  | .registerWrite a _ => a.wf
  | .rcRead a => a.wf
  | .latchingRead a => a.wf
  | .imageLoad r _ _ => ringWf r
  | .loadFetchComplete _ _ => true
  | .loadVerifyComplete => true
  | .loadCheckComplete => true
  | .loadWriteComplete => true
  | .tileWake _ => true
  | .partialLoadBoundary => true
  | .loadRelease => true
  | .imageAbort r _ => ringWf r
  | .imageUnload r _ => ringWf r
  | .unloadBoundary => true
  | .fwWrite r _ _ => ringWf r
  | .fwActivate r _ => ringWf r
  | .optWrite r _ => ringWf r
  | .optCommit r _ => ringWf r
  | .optRead r _ => ringWf r
  | .cfgErrClear => true
  | .hello rx => rx.system 0x40
  | .cycleReport rx => rx.system 0x10
  | .gopAnnounce rx => rx.system 0x41
  | .gopMark => true
  | .agreementReady => true
  | .sync rx => rx.system 0x42
  | .snapshotWriteComplete => true
  | .stopNotice rx => rx.system 0x43
  | .faultNotice rx => rx.system 0x44
  | .freeze rx => rx.system 0x45
  | .stopAt r _ => ringWf r
  | .snapshotAt r _ => ringWf r
  | .resetAt r _ => ringWf r
  | .broadcast r _ => ringWf r
  | .barrier r _ => ringWf r
  | .setEpoch r _ => ringWf r
  | .snapArea r _ => ringWf r
  | .restore r _ => ringWf r
  | .restoreComplete _ => true
  | .snapInfo r _ => ringWf r
  | .exch rx => rx.striped 1
  | .exchFlitClose _ => true
  | .msg rx => rx.striped 2
  | .fill rx => rx.unseq 5
  | .replayTimeout lane => laneWf lane
  | .fecCodeword lane _ _ _ => laneWf lane
  | .train rx => rx.unseq 6
  | .signalDetect lane => laneWf lane
  | .eqComplete lane => laneWf lane
  | .alignSearchStep lane => laneWf lane
  | .trainingTimeout lane => laneWf lane
  | .backoffExpiry lane => laneWf lane
  | .trunkStart t => laneWf t
  | .trunkStartTimeout t => laneWf t
  | .laneFail lane _ => laneWf lane
  | .recoverReq rx => rx.unseq 4 && rx.ctrl 1
  | .resume rx _ => rx.unseq 4 && rx.ctrl 2
  | .linkDown t => laneWf t
  | .linkRetrain r _ => ringWf r
  | .linkSlip r _ => ringWf r
  | .linkPrbs r _ => ringWf r
  | .linkPrbsRead r _ _ _ => ringWf r
  | .linkRejoin r _ => ringWf r
  | .prbsClr lane => laneWf lane
  | .retryNow lane => laneWf lane
  | .timeSyncSend => true
  | .timeSync rx _ => rx.unseq 3
  | .pdelayInterval => true
  | .pdelayReq rx _ => rx.unseq 3
  | .pdelayResp rx => rx.unseq 3
  | .pdelayTimeout t => laneWf t
  | .lossOfMaster => true
  | .ethSync _ _ _ _ _ _ => true
  | .followUp _ _ _ _ _ => true
  | .delayReq _ _ _ => true
  | .delayResp _ _ _ _ _ => true
  | .announce _ _ => true
  | .timeGet r _ => ringWf r
  | .timeSet r _ => ringWf r
  | .timeStep r _ => ringWf r
  | .timeRate r _ => ringWf r
  | .rateAdj _ => true
  | .comparatorFire _ => true
  | .comparatorWrite _ _ _ => true
  | .haltInput _ _ _ => true
  | .haltDiscrepancy => true
  | .discClear => true
  | .doorbell fn _ _ => ringWf fn
  | .hostRecordFetch _ _ _ => true
  | .spillRefill _ _ => true
  | .outboundRecordWrite _ _ => true
  | .remoteForward _ _ => true
  | .flowRelease _ => true
  | .hringEn _ => true
  | .evTimer _ => true
  | .flr fn => ringWf fn
  | .bar4Access fn _ _ _ _ => ringWf fn
  | .queueGet r _ => ringWf r
  | .queueSet r _ => ringWf r
  | .queueStats r _ => ringWf r
  | .portGet r _ => ringWf r
  | .flowSet r _ => ringWf r
  | .crcSet r _ => ringWf r
  | .dlogSet r _ => ringWf r
  | .acqCtrlArm => true
  | .acqCtrlArmAt => true
  | .acqCtrlDisarm => true
  | .acqCtrlForce => true
  | .autoTrigger => true
  | .acqArm r _ => ringWf r
  | .acqDisarm r _ => ringWf r
  | .acqForce r _ => ringWf r
  | .acqStatus r _ => ringWf r
  | .capMapRead r _ => ringWf r
  | .trcEnable r _ => ringWf r
  | .trcDisable r _ => ringWf r
  | .trcOverflow => true
  | .syncPoint => true
  | .scrub _ _ => true
  | .muxForced _ => true
  | .toutTransfer => true
  | .tinCommit => true
  | .tafOutputs r _ => ringWf r
  | .tafStatus r _ => ringWf r
  | .tafClksel r _ => ringWf r
  | .tafClkcfg r _ => ringWf r
  | .tafFifoStats r _ => ringWf r
  | .fallbackDataWrite k _ => fallbackWf k
  | .fallbackDataRead k => fallbackWf k
  | .fallbackRxByte k _ _ => fallbackWf k
  | .partTileSet r _ => ringWf r
  | .partRegionSet r _ => ringWf r
  | .setRights r _ => ringWf r
  | .rightsDrain => true
  | .keyInstall r _ => ringWf r
  | .keyErase r _ => ringWf r
  | .sealKeySet r _ => ringWf r
  | .rekey r _ => ringWf r
  | .rekeyLine _ _ => true
  | .snapExport r _ => ringWf r
  | .snapImport r _ => ringWf r
  | .dikGet r _ => ringWf r
  | .alarmClear => true
  | .sqProd r _ _ => ringWf r
  | .cqCons r _ => ringWf r
  | .crEn r _ => ringWf r
  | .blockWrite _ _ => true
  | .blockRead => true
  | .commandDatagram _ => true
  | .idGet r _ => ringWf r
  | .clusterMapGet r _ => ringWf r
  | .faultGet r _ => ringWf r
  | .mgmtKeySet r _ => ringWf r
  | .echo r _ => ringWf r
  | .powerSet r _ => ringWf r
  | .deviceReset r _ => ringWf r
  | .deviceResetBegin => true
  | .fence r _ => ringWf r
  | .fenceAck _ _ => true
  | .fenceForced _ _ _ => true
  | .stepClockSet r _ => ringWf r
  | .powerStatus r _ => ringWf r
  | .run r _ => ringWf r
  | .stop r _ => ringWf r
  | .runStatus r _ => ringWf r
  | .seqSet r _ => ringWf r
  | .peek r _ _ => ringWf r
  | .deposit r _ _ => ringWf r
  | .force r _ => ringWf r
  | .release r _ => ringWf r
  | .forceList r _ => ringWf r
  | .memTest r _ => ringWf r
  | .errInject r _ => ringWf r
  | .miscompare _ => true
  | .ringTimeout _ _ _ _ => true
  | .lateCompletion _ _ => true
  | .quarantineExpiry _ => true
  | .wdogKick => true
  | .wdogWarn => true
  | .watchdog => true
  | .watchdogReset => true
  | .spOwner _ _ _ => true
  | .ownerHandover _ => true
  | .scratchpadAccess a _ _ => a.wf
  | .setAliasWrite a => a.wf
  | .clearAliasWrite a => a.wf
  | .evPendClear fn _ _ _ => ringWf fn
  | .evRoute _ _ => true
  | .uartCharacter _ _ _ => true
  | .uartBreak => true
  | .railGood rail _ => railWf rail
  | .railLoss rail => railWf rail
  | .strapLatch _ => true
  | .bootCopy _ _ _ _ => true
  | .bringUpComplete => true
  | .resetN _ => true
  | .resetRelease => true
  | .blockResetComplete _ _ => true
  | .perstN => true
  | .refclkLoss clk => refclkWf clk
  | .avsWriteAck _ => true
  | .avsTimeout _ => true
  | .thermalSample _ _ _ _ _ => true
  | .throttleStepDown => true
  | .throttleStepUp => true
  | .refclkReturn clk => refclkWf clk
  | .prbsCheckerLock b => laneWf b.lane
  | .prbsLockLoss lane _ _ => laneWf lane
  | .fabricClockEdge _ _ => true
  | .targetPinInput pin _ => pinWf pin
  | .ethSyncSend => true
  | .ethDelayReqSend => true
  | .snapExportComplete => true
  | .snapImportComplete _ _ => true
  | .memTestComplete _ _ _ => true
  | .optCommitComplete _ => true
  | .traceDrainComplete => true
  | .muxSwitchComplete _ => true
  | .muleSwitchoverComplete _ => true
  | .muleSelftestComplete _ => true
  | .bridgeRetrain m => laneWf m
  | .bridgeRetrainComplete m => laneWf m
  | .gopSlotRead _ => true
  | .flitCrcFail b => laneWf b.lane
  | .hostLinkDmaError _ => true
  | .perstNRelease => true
  | .jtagInstruction _ => true

end Sys2Proof
end

