-- ==== Sys2Proof/Tests/Slice0.lean ====
section
/-!
SUPPORT. Tests: ill-formed operands are refused, small examples of single steps, and for every statement with hypotheses a concrete
state and operands that meet them. Expected values are worked out from the rules named.
-/

namespace Sys2Proof.Tests
-- one theorem after another: each takes a thread of its own otherwise
set_option Elab.async false
open Sys2Proof Machine Reg

/-- The state that a command answers. -/
def after (o : Host.Outcome State Fault Refusal) : State :=
  match o with
  | .next t => t
  | _ => State.reset

/-- The state after a command. -/
def ran (c : Instr) (s : State) : State := after (exec c s)

/-! ## General -/

/-- The state after reset with some register fields set. -/
def withRegs (fs : List (Field × Nat)) : State := setFs State.reset fs

theorem witness_inv : Safety.Inv State.reset := by
  refine ⟨?_, ?_, ?_, ?_, ?_, ?_, ?_, ?_, ?_, ?_, ?_, ?_, ?_⟩ <;> first | decide | (intro e he; cases he)
theorem witness_idle : State.reset.pending = [] ∧ State.reset.pw.boot = .up ∧ getF State.reset RATE_ADJ = 0
    ∧ State.reset.time.ns + 2 < 1000000000 := by decide +kernel

/-! ## Words (R39 to R76) -/

/-- The state in which an issue goes on. -/
def issued (s : State) (w : Site) : State :=
  match admission s w with
  | .issue u => u
  | _ => s

/-- BP 0, step 0 of cluster 0. -/
def site0 : Site := ⟨0, false, 0, 0⟩

/-- The word at BP 0, step 0 of cluster 0 issues without a fault. -/
abbrev Runs (s : State) : Prop := Safety.Issues s (issued s site0) site0

/-- Cluster 0 in a cycle, with one word at BP 0 of step 0, a constant 1 in slot 5 and the listed register fields. -/
def wordState (word : BitVec 80) (fs : List (Field × Nat)) : State :=
  let s := setFs State.reset ([(SEQ_STATE, 2), (IN_CYCLE, 1), (TILE_GATED 0, 0), (TILE_IN_RESET 0, 0)] ++ fs)
  { s with eng := { s.eng with imem := [(0, word)], prog := [(0, 0x20000)], slot := [(5, true)] } }

/-- An instruction word with operands A to D and TT (R48). -/
def iw (op dst a b c d tt : Nat) : BitVec 80 :=
  BitVec.ofNat 80 (op * 2 ^ 75 + dst * 2 ^ 61 + a * 2 ^ 50 + b * 2 ^ 39 + c * 2 ^ 28 + d * 2 ^ 17 + tt)

/-- A word of a port: port, SEL, bit index, SEQ (R51). -/
def pw (op dst a port sel bit seq : Nat) : BitVec 80 :=
  BitVec.ofNat 80 (op * 2 ^ 75 + dst * 2 ^ 61 + a * 2 ^ 50 + port * 2 ^ 45 + sel * 2 ^ 44 + bit * 2 ^ 36 + seq * 2 ^ 30)

/-- Slot 7 of cluster 0 after a command. -/
def slot7 (c : Instr) (s : State) : Bool := mget (ran c s).eng.slot false 7

theorem witness_nop : Runs (wordState (iw 0x00 0 0 0 0 0 0) []) := by decide +kernel

/-- A = 1 and B to D 0 select bit 1 of the truth table (R57). -/
def evalState : State := wordState (iw 0x01 7 5 6 6 6 0x0002) []
theorem witness_eval : Runs evalState ∧ opcOf (wordAt evalState 0 false 0 0) = 0x01 := by decide +kernel
theorem test_eval : slot7 (.eval site0) evalState = true := by decide +kernel

/-- D = 1 enables the write; A = B = C = 1 select bit 7 (R58). -/
def evalmState : State := wordState (iw 0x04 7 5 5 5 5 0x0080) []
theorem witness_evalm : Runs evalmState ∧ readNet (issued evalmState site0) 0 false (dOf (wordAt evalmState 0 false 0 0)) = true := by
  decide +kernel
theorem test_evalm : slot7 (.evalm site0) evalmState = true := by decide +kernel

def evalmOff : State := wordState (iw 0x04 7 5 5 5 6 0x0080) []
theorem witness_evalm_off : Runs evalmOff ∧ readNet (issued evalmOff site0) 0 false (dOf (wordAt evalmOff 0 false 0 0)) = false := by
  decide +kernel
theorem test_evalm_off : slot7 (.evalm site0) evalmOff = false := by decide +kernel

/-- LDS of state bit 0xFFFF, the last one (R49, R59). -/
def ldsState : State :=
  let s := wordState (BitVec.ofNat 80 (0x02 * 2 ^ 75 + 7 * 2 ^ 61 + 0xFFFF * 2 ^ 45)) []
  { s with eng := { s.eng with cur := [(0xFFFF, true)] } }
theorem witness_lds : Runs ldsState ∧ opcOf (wordAt ldsState 0 false 0 0) = 0x02 := by decide +kernel
theorem test_lds : slot7 (.lds site0) ldsState = true := by decide +kernel

def stsState : State := wordState (BitVec.ofNat 80 (0x03 * 2 ^ 75 + 5 * 2 ^ 50 + 0xFFFF * 2 ^ 34)) []
theorem witness_sts : Runs stsState ∧ opcOf (wordAt stsState 0 false 0 0) = 0x03 := by decide +kernel
theorem test_sts : (ran (.sts site0) stsState).eng.nxt = [(0xFFFF, true)] := by decide +kernel

/-- Port 31 of tile 0 is bound to on-die memory, owned by cluster 0, 40 address bits and 256 data bits wide. -/
def portFields : List (Field × Nat) :=
  [(MMP_BIND 0 31, 1), (MMP_AWIDTH_M1 0 31, 39), (MMP_DWIDTH_M1 0 31, 255)]

def mpaAState : State := wordState (pw 0x08 0 5 31 0 39 0) portFields
theorem witness_mpa_address : Runs mpaAState ∧ selOf (wordAt mpaAState 0 false 0 0) = false := by decide +kernel
theorem test_mpa_address : (mmpAt (ran (.mpaAddress site0) mpaAState) 0 31).addr = 0x8000000000#40 := by decide +kernel

def mpaDState : State := wordState (pw 0x08 0 5 31 1 255 0) portFields
theorem witness_mpa_data : Runs mpaDState ∧ selOf (wordAt mpaDState 0 false 0 0) = true := by decide +kernel
theorem test_mpa_data : (mmpAt (ran (.mpaData site0) mpaDState) 0 31).data = BitVec.ofNat 256 (2 ^ 255) := by decide +kernel

def mpgRState (a : Nat) : State := wordState (pw 0x09 0 a 31 0 0 63) portFields
theorem witness_mpg_read : Runs (mpgRState 5) ∧ readNet (issued (mpgRState 5) site0) 0 false 5 = true := by decide +kernel
theorem witness_mpg_read_off : Runs (mpgRState 6) ∧ readNet (issued (mpgRState 6) site0) 0 false 6 = false := by decide +kernel
theorem test_mpg_read : (mmpAt (ran (.mpgRead site0) (mpgRState 5)) 0 31).requests.length = 1 := by decide +kernel
theorem test_mpg_read_off : (mmpAt (ran (.mpgRead site0) (mpgRState 6)) 0 31).results = [(63, 0)] := by decide +kernel

def mpgWState (a ro : Nat) : State := wordState (pw 0x09 0 a 31 1 0 63) (portFields ++ [(MMP_RO 0 31, ro)])
theorem witness_mpg_write : Runs (mpgWState 5 0) ∧ flag (mpgWState 5 0) (MMP_RO 0 31) = false := by decide +kernel
theorem witness_mpg_write_ro : Runs (mpgWState 5 1) ∧ flag (mpgWState 5 1) (MMP_RO 0 31) = true := by decide +kernel
theorem witness_mpg_write_off : Runs (mpgWState 6 0) ∧ readNet (issued (mpgWState 6 0) site0) 0 false 6 = false := by decide +kernel
theorem test_mpg_write : (mmpAt (ran (.mpgWrite site0) (mpgWState 5 0)) 0 31).writes.length = 1 := by decide +kernel
theorem test_mpg_write_ro : getF (ran (.mpgWrite site0) (mpgWState 5 1)) (MMP_WDROP 0 31) = 1 := by decide +kernel

def mprState : State :=
  let s := wordState (pw 0x0A 7 0 31 0 255 63) portFields
  setMmp s 0 31 { MmpPort.empty with results := [(63, BitVec.ofNat 256 (2 ^ 255))] }
theorem witness_mpr : Runs mprState ∧ opcOf (wordAt mprState 0 false 0 0) = 0x0A := by decide +kernel
theorem test_mpr : slot7 (.mpr site0) mprState = true := by decide +kernel

/-- Message port 15 of tile 0 is bound to queue 16384 and owned by cluster 0; a message is current there. -/
def msgState (word : BitVec 80) (width : Nat) : State :=
  let s := wordState word [(P_BOUND 15, 1), (P_VALID 15, 1), (P_QBASE 15, 16384), (Q_WIDTH_M1 16384, width - 1)]
  setMsg s 15 { MsgPort.empty with cur := some (16384, ⟨0, 0, 0, 0, 0, 0, BitVec.ofNat 256 (2 ^ 255), 0, none, 0, 0⟩) }
theorem witness_msr : Runs (msgState (pw 0x0C 7 0 15 0 255 0) 256) := by decide +kernel
theorem test_msr : slot7 (.msr site0) (msgState (pw 0x0C 7 0 15 0 255 0) 256) = true := by decide +kernel
theorem witness_msw : Runs (msgState (pw 0x0D 0 5 15 0 255 0) 256) := by decide +kernel
theorem witness_msw_beyond : Runs (msgState (pw 0x0D 0 5 15 0 255 0) 255) := by decide +kernel
theorem test_msw : (msgAt (ran (.msw site0) (msgState (pw 0x0D 0 5 15 0 255 0) 256)) 15).out = BitVec.ofNat 256 (2 ^ 255) := by
  decide +kernel
theorem test_msw_beyond : (msgAt (ran (.msw site0) (msgState (pw 0x0D 0 5 15 0 255 0) 255)) 15).out = 0 := by decide +kernel
theorem witness_msp_pop : Runs (msgState (pw 0x0E 0 5 15 0 0 0) 256) := by decide +kernel
theorem witness_msp_push : Runs (msgState (pw 0x0E 0 5 15 1 0 0) 256) := by decide +kernel
theorem test_msp_pop : (msgAt (ran (.mspPop site0) (msgState (pw 0x0E 0 5 15 0 0 0) 256)) 15).pop = true := by decide +kernel
theorem test_msp_push : (msgAt (ran (.mspPush site0) (msgState (pw 0x0E 0 5 15 1 0 0) 256)) 15).push = true := by decide +kernel

/-- Outbound and inbound target bit 15 * 256 + 255 belong to half a of cluster 0 (R71). -/
def targetState (word : BitVec 80) : State :=
  let s := wordState word []
  { s with eng := { s.eng with tbOut := [(4095, 1)], tbIn := [(4095, 1)] }, cyc := { s.cyc with tin := [(4095, true)] } }
theorem witness_tpo : Runs (targetState (pw 0x12 0 5 15 0 255 0)) := by decide +kernel
theorem test_tpo : (ran (.tpo site0) (targetState (pw 0x12 0 5 15 0 255 0))).cyc.driven = [(4095, some true)] := by decide +kernel
theorem witness_tpi : Runs (targetState (pw 0x13 7 0 15 0 255 0)) := by decide +kernel
theorem test_tpi : slot7 (.tpi site0) (targetState (pw 0x13 7 0 15 0 255 0)) = true := by decide +kernel

/-- A = 1, B = 0, C = 1: a mismatch (R74); with C = 0 there is none. -/
def chkState (c : Nat) : State := wordState (iw 0x10 0 5 6 c 0 0) []
theorem witness_chk : Runs (chkState 5) ∧ flag (chkState 5) (ASSERT_VALID 0) = false := by decide +kernel
theorem witness_chk_good : Runs (chkState 6) := by decide +kernel
theorem test_chk : getF (ran (.chk site0) (chkState 5)) (ASSERT_COUNT 0) = 1 := by decide +kernel
theorem witness_stopc : Runs (wordState (iw 0x11 0 5 0 0 0 0) []) := by decide +kernel
theorem test_stopc : (ran (.stopc site0) (wordState (iw 0x11 0 5 0 0 0 0) [])).cyc.stopc = some (0, 0) := by decide +kernel

/-- The first and the last illegal code (R54). -/
def illegalState (op : Nat) : State := wordState (iw op 0 0 0 0 0 0) []
theorem witness_illegal_op : verdict (issued (illegalState 0x05) site0) site0 = ⟨[0x0101], false⟩
    ∧ verdict (issued (illegalState 0x1F) site0) site0 = ⟨[0x0101], false⟩ := by decide +kernel
theorem test_illegal_op : getF (ran (.illegalOp site0) (illegalState 0x1F)) FAULT_CODE = 0x0101 := by decide +kernel

/-! ## The major cycle -/

/-- RUNNING at a boundary. -/
def runBoundary : State := withRegs [(SEQ_STATE, 2)]
theorem witness_tick : releaseReady runBoundary = true ∧ flag runBoundary SEQ_MODE = false ∧ skewBlocks runBoundary = false
    ∧ throttled runBoundary = false ∧ tilesMissing runBoundary = []
    ∧ (runningHalves runBoundary).all (fun k => tableGood runBoundary (pcOf k) (halfB k)) = true := by decide +kernel
theorem test_tick : getF (ran (.tick 100) runBoundary) IN_CYCLE = 1 ∧ getF (ran (.tick 100) runBoundary) LAST_PERIOD = 100 := by
  decide +kernel

/-- PACED with T0 = 0 and a period of 10 ns; local time 5 ns: instant 0 has passed. -/
def pacedState (inCycle : Nat) : State :=
  let s := withRegs [(SEQ_STATE, 2), (SEQ_MODE, 1), (PACE_PERIOD_NS, 10), (IN_CYCLE, inCycle)]
  { s with time := { s.time with ns := 5 } }
theorem witness_paced : releaseReady (pacedState 0) = true ∧ flag (pacedState 0) SEQ_MODE = true
    ∧ (pacedState 0).cyc.instant < instantsPassed (pacedState 0) ∧ skewBlocks (pacedState 0) = false ∧ throttled (pacedState 0) = false
    ∧ tilesMissing (pacedState 0) = []
    ∧ (runningHalves (pacedState 0)).all (fun k => tableGood (pacedState 0) (pcOf k) (halfB k)) = true := by decide +kernel
theorem test_paced : getF (ran (.pacedInstant 0 1) (pacedState 0)) IN_CYCLE = 1 := by decide +kernel
theorem witness_overrun : (pacedState 1).cyc.instant < instantsPassed (pacedState 1) ∧ atBoundary (pacedState 1) = false := by
  decide +kernel
theorem test_overrun : getF (ran (.pacedInstant 0 1) (pacedState 1)) OVERRUN_COUNT = 1 := by decide +kernel

def inCycle : State := withRegs [(SEQ_STATE, 2), (IN_CYCLE, 1)]
theorem witness_die_done : flag inCycle IN_CYCLE = true ∧ dieReady inCycle 3 = true := by decide +kernel

/-- Every die is done. -/
def allDone : State := { inCycle with cyc := { inCycle.cyc with dieDone := [(0, true), (1, true), (2, true), (3, true)] } }
theorem witness_commit : deviceDone allDone = true ∧ stepClock allDone = true ∧ (commitActions allDone []).cyc.waiting = []
    ∧ allDone.cyc.held = [] ∧ allDone.ctl.groups = [] := by decide +kernel
theorem test_commit : getF (ran (.commitPhase []) allDone) CYCLE_NUM = 1 ∧ getF (ran (.commitPhase []) allDone) IN_CYCLE = 0 := by
  decide +kernel

/-- A record with nothing in it. -/
def blankRecord : Record := ⟨0, 0, 0, 0, 0, 0, 0, 0, none, 0, 0⟩

/-- A HOLD port with a push whose queue holds `n` records; 32 fill it. -/
def holdCommit (n : Nat) : State :=
  let s := setFs allDone [(P_BOUND 0, 1), (P_DIR 0, 1), (P_POLICY 0, 1), (P_FULL 0, 1), (P_QBASE 0, 16384)]
  setQueue (setMsg s 0 { MsgPort.empty with push := true }) 16384 { Queue.empty with window := List.replicate n blankRecord }
theorem witness_commit_waits : deviceDone (holdCommit 32) = true ∧ stepClock (holdCommit 32) = true
    ∧ (commitActions (holdCommit 32) []).cyc.waiting = [0] := by decide +kernel

/-- Two ports wait at action 7; there is room for the push of the first. -/
def waitingState (l : List Nat) : State :=
  let s := setFs (holdCommit 31) [(IN_CYCLE, 0), (IN_COMMIT, 1)]
  { s with cyc := { s.cyc with waiting := l } }
theorem witness_hold_port : stepClock (waitingState [0, 1]) = true ∧ (waitingState [0, 1]).cyc.waiting.length ≠ 1
    ∧ (waitingState [0, 1]).cyc.waiting.contains 0 = true
    ∧ roomIn (waitingState [0, 1]) (getF (waitingState [0, 1]) (P_QBASE 0)) = true := by decide +kernel
theorem witness_hold_port_last : stepClock (waitingState [0]) = true ∧ (waitingState [0]).cyc.waiting = [0]
    ∧ roomIn (waitingState [0]) (getF (waitingState [0]) (P_QBASE 0)) = true := by decide +kernel
theorem test_hold_port : (ran (.holdPortPush 0 0) (waitingState [0, 1])).cyc.waiting = [1]
    ∧ getF (ran (.holdPortPush 0 0) (waitingState [0])) CYCLE_NUM = 1 := by decide +kernel
theorem witness_commit_stall : (waitingState [0]).cyc.waiting ≠ [] ∧ (waitingState [0]).cyc.stalled = false := by decide +kernel

/-- The PLL relocks at 900 MHz. -/
def relockState : State :=
  let s := withRegs [(STEP_MHZ_REQ, 900)]
  { s with cyc := { s.cyc with clockReq := some 900, relocking := true } }
theorem witness_pll_relock : relockState.cyc.clockReq = some 900 ∧ relockState.cyc.relocking = true ∧ targetMhz relockState = 900
    ∧ 900 < 2 ^ STEP_MHZ_NOW.width := by decide +kernel
theorem test_pll_relock : getF (ran .pllRelock relockState) STEP_MHZ_NOW = 900 := by decide +kernel

/-- Cluster 0 waits on an empty receive slot. -/
def deadState : State := wordState (iw 0x01 7 0x600 0x600 0x600 0x600 0) []
theorem witness_deadlock : flag deadState IN_CYCLE = true ∧ mget deadState.cyc.dieDone false 0 = false ∧ dieReady deadState 0 = false
    ∧ getF deadState NOPROGRESS_LIMIT ≠ 0 ∧ dieBlocked deadState 0 = true ∧ getF deadState SEQ_STATE = 2
    ∧ getF deadState FAULT_CODE = 0 ∧ flag deadState IN_COMMIT = false := by decide +kernel
theorem test_deadlock : getF (ran (.deadlock 0) deadState) FAULT_CODE = 0x0301 := by decide +kernel

/-- Block 0 of cluster 0 is gated by local slot 5, which holds 1. -/
def specState : State :=
  let s := wordState 0 []
  { s with eng := { s.eng with block := [(0, BitVec.ofNat 64 (2 ^ 22 + 5 * 2 ^ 24))] } }
theorem witness_speculative : flag specState IN_CYCLE = true ∧ specState.cyc.faulted = false ∧ halfRuns specState 0 false = true
    ∧ 0 < progBlocks (progOf specState 0 false) ∧ speculative (blockAt specState 0 false 0) = true
    ∧ (halfOf specState 0 false).decided.lookup 0 = none ∧ nextStep (halfOf specState 0 false) ≤ blkFirst (blockAt specState 0 false 0)
    ∧ standsBefore specState 0 false (blkFirst (blockAt specState 0 false 0)) = true
    ∧ inTurn specState 0 false (blkFirst (blockAt specState 0 false 0)) = true := by decide +kernel
theorem test_speculative : (halfOf (ran (.speculativeDecision 0 false 0) specState) 0 false).decided = [(0, true)] := by decide +kernel

/-- At the end of a commit phase, with the cycle number at its limit and just below. -/
def endState (n : Nat) : State := withRegs [(SEQ_STATE, 2), (IN_COMMIT, 1), (CYCLE_NUM, n)]
theorem witness_cycle_number : (endState (2 ^ 48 - 1)).sys.ops = [] ∧ (endState (2 ^ 48 - 1)).sys.agreements = []
    ∧ (endState (2 ^ 48 - 1)).sys.stop = none ∧ (endState (2 ^ 48 - 1)).sys.notice = none ∧ (endState (2 ^ 48 - 1)).cyc.faulted = false
    ∧ getF (endState (2 ^ 48 - 1)) CYCLE_NUM < 2 ^ 48 ∧ flag (endState (2 ^ 48 - 1)) IN_CYCLE = false := by decide +kernel
theorem test_cycle_number : getF (finishCommit (endState (2 ^ 48 - 2))) CYCLE_NUM = 2 ^ 48 - 1
    ∧ getF (finishCommit (endState (2 ^ 48 - 1))) CYCLE_NUM = 2 ^ 48 - 1 := by decide +kernel

/-- STOPPED, and with a route whose trunk is not UP. -/
def stopped : State := withRegs [(SEQ_STATE, 1)]
def stoppedMissing : State := withRegs [(SEQ_STATE, 1), (DR_VALID 511, 1), (DR_TRUNK 511, 95)]
theorem witness_run : hostUp stopped = true ∧ getF stopped SEQ_STATE = 1 ∧ getF stopped CYCLE_NUM < 2 ^ 48 - 1 ∧ haltBlocks stopped = false
    ∧ trunkMissing stopped = false := by decide +kernel
theorem witness_run_refused : hostUp stoppedMissing = true ∧ getF stoppedMissing SEQ_STATE = 1 ∧ trunkMissing stoppedMissing = true := by
  decide +kernel
theorem witness_stop : hostUp runBoundary = true ∧ getF runBoundary SEQ_STATE = 2 := by decide +kernel
theorem test_run : getF (ran .seqCtrlRun stopped) SEQ_STATE = 2 ∧ getF (ran .seqCtrlRun stoppedMissing) RUN_REFUSED = 1 := by decide +kernel

/-- Port 31 of tile 127 on die, 256 bits wide; its depth is 1,024 words. -/
def portState (m : MmpPort) : State :=
  let s := withRegs [(SEQ_STATE, 2), (IN_CYCLE, 1), (MMP_BIND 127 31, 1), (MMP_DWIDTH_M1 127 31, 255), (MMP_DEPTH_M1 127 31, 1023),
    (MMP_OOR_POLICY 127 31, 0)]
  setMmp s 127 31 m
def accessOf (addr : Nat) (write : Bool) : MmpAccess := ⟨63, BitVec.ofNat 40 addr, 0, write, 2047, false, 0, 0, false, false⟩
def requestState (addr : Nat) (write : Bool) : State := portState { MmpPort.empty with requests := [accessOf addr write] }
theorem witness_take_read : inRange (requestState 1023 false) 127 31 1023 = true := by decide +kernel
theorem witness_take_write : inRange (requestState 1023 true) 127 31 1023 = true := by decide +kernel
theorem witness_take_beyond : inRange (requestState 1024 false) 127 31 1024 = false
    ∧ flag (requestState 1024 false) (MMP_OOR_POLICY 127 31) = false := by decide +kernel
theorem test_take : (mmpAt (ran (.mmpRequestTake 127 31) (requestState 1023 false)) 127 31).flying = [accessOf 1023 false]
    ∧ getF (ran (.mmpRequestTake 127 31) (requestState 1024 false)) (MMP_OOR 127 31) = 1 := by decide +kernel

def flyingState (mark : Nat) : State :=
  let s := portState { MmpPort.empty with flying := [accessOf 1023 false] }
  { s with eng := { s.eng with memErr := if mark = 0 then [] else [(127 * 393216 + 4095, mark)],
                               mem := [(127 * 3145728 + 32767, 0x80)] } }
theorem witness_result : onDie (flyingState 0) 127 31 = true
    ∧ (rowsOf (flyingState 0) 127 31 1023).all (fun r => mget (flyingState 0).eng.memErr 0 r == 0) = true := by decide +kernel
theorem witness_result_bad : (rowsOf (flyingState 2) 127 31 1023).any (fun r => mget (flyingState 2).eng.memErr 0 r == 2) = true
    ∧ getF (flyingState 2) FAULT_CODE = 0 ∧ flag (flyingState 2) IN_COMMIT = false := by decide +kernel
theorem test_result : (mmpAt (ran (.mmpResult 127 31 63 .none) (flyingState 0)) 127 31).results = [(63, BitVec.ofNat 256 (2 ^ 255))]
    ∧ getF (ran (.mmpResult 127 31 63 .none) (flyingState 2)) FAULT_CODE = 0x0102 := by decide +kernel

/-! ## Exchange -/

/-- Lanes 2 and 3 are active lanes of trunk 5, which is ACTIVE and UP. -/
def linkFields : List (Field × Nat) :=
  [(LANE_ENABLE 2, 1), (LANE_TRUNK 2, 5), (LANE_STATE 2, 6), (LANE_ENABLE 3, 1), (LANE_TRUNK 3, 5), (LANE_STATE 3, 6), (LSTATE 5, 2),
   (TS_STATE 5, 2)]
def linkState : State := withRegs (linkFields ++ [(SEQ_STATE, 1), (DIAMETER, 1)])

/-- A value 1 on its way to receive slot 0x601 of cluster 16 of this device. -/
def valueRec : XRec := ⟨false, 0, 0, 1, 0, 1, 0, true, 0⟩
def creditRec : XRec := ⟨true, 0, 3, 31, 0, 0, 4095, false, 0⟩
def transitState (rs : List XRec) (fs : List (Field × Nat)) : State :=
  let s := withRegs ([(SEQ_STATE, 2), (IN_CYCLE, 1)] ++ fs)
  { s with ex := { s.ex with transit := rs } }
def recvState (n gated : Nat) : State :=
  let s := transitState [creditRec, valueRec] [(TILE_GATED 1, gated), (TILE_IN_RESET 1, 0)]
  { s with eng := { s.eng with recv := [(recvKey 16 0x601, List.replicate n false)], prog := [(32, 0x20000)] } }
theorem witness_value : oldest (recvState 4 0) (fun x => !x.credit && pcOfRec x == 16 && x.rslot == 1) = some valueRec
    ∧ flag (recvState 4 0) (TILE_GATED 1) = false ∧ flag (recvState 4 0) (TILE_IN_RESET 1) = false
    ∧ unboundHalf (recvState 4 0) 16 (halfOfOffset (recvState 4 0) 16 1) = false ∧ substituted (recvState 4 0) 16 0x601 = false
    ∧ (recvQ (recvState 4 0) 16 0x601).length < 5 := by decide +kernel
theorem witness_value_fault : (recvQ (recvState 5 0) 16 0x601).length = 5 ∧ getF (recvState 5 0) FAULT_CODE = 0
    ∧ flag (recvState 5 0) IN_COMMIT = false ∧ flag (recvState 5 0) (TILE_GATED 1) = false
    ∧ flag (recvState 5 0) (TILE_IN_RESET 1) = false ∧ substituted (recvState 5 0) 16 0x601 = false
    ∧ unboundHalf (recvState 5 0) 16 (halfOfOffset (recvState 5 0) 16 1) = false := by decide +kernel
theorem witness_value_gated : flag (recvState 0 1) (TILE_GATED 1) = true := by decide +kernel
theorem test_value : recvQ (ran (.valueRecord 16 1) (recvState 4 0)) 16 0x601 = [false, false, false, false, true]
    ∧ getF (ran (.valueRecord 16 1) (recvState 5 0)) FAULT_CODE = 0x0202
    ∧ getF (ran (.valueRecord 16 1) (recvState 0 1)) (EXCH_DISCARD 1) = 1 := by decide +kernel

theorem witness_credit : oldest (recvState 0 0) (fun x => x.credit && x.die.toNat * 32 + x.tile.toNat == 127 && x.entry == 4095)
    = some creditRec := by decide +kernel
theorem test_credit : creditOf (ran (.creditRecord 127 4095) (recvState 0 0)) 127 4095 = 6 := by decide +kernel

/-- Module 95 holds an open frame for device 511, and two frames under way. -/
def moduleState (retrain : Bool) : State :=
  let s := transitState [] []
  { s with ex := { s.ex with opened := [(openKey 95 3 511, [valueRec])], frames := [(95, [⟨0, 3, 7, [valueRec]⟩, ⟨0, 3, 8, [creditRec]⟩])],
                             seqRx := [(95, 7)], seqTx := [(95, 9)], retrain := if retrain then [(95, true)] else [] } }
theorem witness_frame_close : mget (moduleState false).ex.opened [] (openKey 95 3 511) = valueRec :: [] := by decide +kernel
theorem witness_frame : mget (moduleState false).ex.retrain false 95 = false ∧ mget (moduleState false).ex.frames [] 95
      = ⟨0, 3, 7, [valueRec]⟩ :: [⟨0, 3, 8, [creditRec]⟩] ∧ (7 : BitVec 8) = mget (moduleState false).ex.seqRx 0 95 := by decide +kernel
theorem witness_frame_lost : (mget (moduleState false).ex.frames [] 95).drop 1 = ⟨0, 3, 8, [creditRec]⟩ :: []
    ∧ (8 : BitVec 8) ≠ mget (moduleState false).ex.seqRx 0 95 ∧ getF (moduleState false) FAULT_CODE = 0
    ∧ flag (moduleState false) IN_COMMIT = false := by decide +kernel
theorem witness_retrain : mget (moduleState true).ex.retrain false 95 = true ∧ getF (moduleState true) FAULT_CODE = 0
    ∧ flag (moduleState true) IN_COMMIT = false := by decide +kernel
theorem test_frame : (ran (.exchangeFrame 95 0) (moduleState false)).ex.transit = [valueRec]
    ∧ getF (ran (.exchangeFrame 95 1) (moduleState false)) FAULT_CODE = 0x0203
    ∧ getF (ran (.bridgeDown 95) (moduleState true)) BF_VALID = 1 := by decide +kernel

/-- An EXCH flit of one record for device 0 comes from device 1 on lane 2. -/
def exchRx : Rx := ⟨2, 1, 0, BitVec.ofNat 224 (1 * 2 ^ 22 + exchBody [valueRec] * 2 ^ 40)⟩
/-- The sequenced flit is acted on as it arrives on trunk 5. -/
def deliversOn (s : State) (rx : Rx) : Bool :=
  match takeFlit s rx with
  | .accepted a 5 => heldCount a 5 == 1 && (match nextHeld a 5 with | some (_, f) => f == ⟨rx.type, rx.payload⟩ | none => false)
  | _ => false
theorem delivered_of {s : State} {rx : Rx} (h : deliversOn s rx = true) : ∃ u, Safety.Delivered s rx u 5 := by
  unfold deliversOn at h
  split at h
  · rename_i a ha
    cases hn : nextHeld a 5 with
    | none => simp [hn] at h
    | some e => simp [hn] at h; exact ⟨_, a, e.1, ha, by rw [hn, ← h.2], h.1, rfl⟩
  · cases h
theorem witness_exch : deliversOn linkState exchRx = true ∧ exchRx.type = 1 ∧ getF linkState (TS_STATE 5) = 2 ∧ linkState.sys.snapOpen = none
    ∧ pf exchRx.payload 15 4 + 1 ≤ getF linkState DIAMETER ∧ pf exchRx.payload 31 9 = getF linkState DEV_ID := by decide +kernel
def openFlit : State :=
  let s := setFs linkState [(DR_VALID 511, 1), (DR_TRUNK 511, 5)]
  { s with ex := { s.ex with flits := [(511, [{ valueRec with dev := 511 }])] } }
theorem witness_exch_close : mget openFlit.ex.flits [] 511 = { valueRec with dev := 511 } :: [] ∧ routeOfDev openFlit 511 = some 5 := by
  decide +kernel
theorem witness_record_code : (valueRec.credit = false → valueRec.entry = 0)
    ∧ (creditRec.credit = true → creditRec.cluster = 0 ∧ creditRec.rslot = 0 ∧ creditRec.value = false) := by decide +kernel

/-! ## Links -/

/-- Lane 95 in a state of training. -/
def lane95 (st : Nat) (fs : List (Field × Nat)) : State := withRegs ([(LANE_STATE 95, st)] ++ fs)
def rxOf (type : Byte) (lane : BitVec 7) (p : Nat) : Rx := ⟨lane, type, 0, BitVec.ofNat 224 p⟩
def rxOn : BitVec 7 → Nat → Rx := rxOf 6
theorem witness_signal : getF (lane95 1 []) (LANE_STATE 95) = 1 := by decide +kernel
theorem test_signal : getF (ran (.signalDetect 95) (lane95 1 [])) (LANE_STATE 95) = 2 := by decide +kernel
theorem witness_eq : getF (lane95 2 []) (LANE_STATE 95) = 2 ∧ mget (lane95 2 []).pw.noClock false (1 + 95 / 16) = false := by decide +kernel
/-- Lane 95 without its reference clock. -/
def clockless : State := let s := lane95 2 []; { s with pw := { s.pw with noClock := [(6, true)] } }
theorem witness_eq_clockless : mget clockless.pw.noClock false (1 + 95 / 16) = true := by decide +kernel
theorem witness_align : getF (lane95 3 [(ALIGN_GOOD 95, 14)]) (LANE_STATE 95) = 3 ∧ flag (lane95 3 [(ALIGN_GOOD 95, 14)]) (ALIGN_MANUAL 95) = false
    ∧ getF (lane95 3 [(ALIGN_GOOD 95, 14)]) (ALIGN_GOOD 95) < 15 := by decide +kernel
theorem witness_align_last : getF (lane95 3 [(ALIGN_GOOD 95, 15)]) (LANE_STATE 95) = 3
    ∧ getF (lane95 3 [(ALIGN_GOOD 95, 15)]) (ALIGN_GOOD 95) = 15 := by decide +kernel
theorem test_align : getF (ran (.train (rxOn 95 0)) (lane95 3 [(ALIGN_GOOD 95, 15)])) (LANE_STATE 95) = 4
    ∧ getF (ran (.train (rxOn 95 0)) (lane95 3 [(ALIGN_GOOD 95, 14)])) (ALIGN_GOOD 95) = 15 := by decide +kernel

/-- Lane 2 of trunk 5 in CONFIG with fifteen equal flits, or READY. -/
def configState (st : Nat) : State :=
  let s := withRegs [(LANE_ENABLE 2, 1), (LANE_TRUNK 2, 5), (LANE_STATE 2, st)]
  setLane s 2 { Lane.reset with cfgGood := 15, cfgLast := 3 }
theorem witness_config : getF (configState 4) (LANE_STATE 2) = 4 ∧ (laneAt (configState 4) 2).cfgGood = 15
    ∧ (laneAt (configState 4) 2).cfgLast = BitVec.ofNat 18 (pf (rxOn 2 3).payload 0 18) ∧ trunkOfLane (configState 4) 2 = some 5
    ∧ flag (configState 4) (REJOIN_AUTO 5) = false ∧ miswired (configState 4) 2 (rxOn 2 3).payload = false := by decide +kernel
theorem witness_start_flit : getF (configState 5) (LANE_STATE 2) = 5 ∧ bitOf (rxOn 2 (2 ^ 20)).payload.toNat 20 = true
    ∧ trunkOfLane (configState 5) 2 = some 5 := by decide +kernel
theorem test_config : getF (ran (.train (rxOn 2 3)) (configState 4)) (LANE_STATE 2) = 5
    ∧ (laneAt (ran (.train (rxOn 2 (2 ^ 20))) (configState 5)) 2).gotStart = true := by decide +kernel
theorem witness_timeout : getF (lane95 4 [(ATTEMPTS 95, 15)]) (LANE_STATE 95) = 4 ∧ getF (lane95 4 [(ATTEMPTS 95, 15)]) (ATTEMPTS 95) = 15
    ∧ getF (lane95 4 [(ATTEMPTS 95, 16)]) (ATTEMPTS 95) ≠ 15 := by decide +kernel
theorem test_timeout : getF (ran (.trainingTimeout 95) (lane95 4 [(ATTEMPTS 95, 15)])) (NO_PARTNER 95) = 1
    ∧ getF (ran (.trainingTimeout 95) (lane95 4 [(ATTEMPTS 95, 14)])) (NO_PARTNER 95) = 0 := by decide +kernel
theorem witness_backoff : getF (lane95 8 []) (LANE_STATE 95) = 8 := by decide +kernel
theorem witness_retry : hostUp (lane95 9 []) = true ∧ getF (lane95 9 []) (LANE_STATE 95) = 9 ∧ hostUp (lane95 5 []) = true
    ∧ 1 ≤ getF (lane95 5 []) (LANE_STATE 95) ∧ getF (lane95 5 []) (LANE_STATE 95) ≠ 6 ∧ getF (lane95 5 []) (LANE_STATE 95) ≠ 9 := by
  decide +kernel

/-- Trunk 95 with lanes 0 and 95 in states `a` and `b`, in link state `l`. -/
def trunkState (l a b : Nat) (x : Trunk) (la lb : Lane) : State :=
  let s := withRegs [(LANE_ENABLE 0, 1), (LANE_TRUNK 0, 95), (LANE_STATE 0, a), (LANE_ENABLE 95, 1), (LANE_TRUNK 95, 95),
    (LANE_STATE 95, b), (LSTATE 95, l), (MIN_LANES_M1 95, 1)]
  setLane (setLane (setTrunk s 95 x) 0 la) 95 lb
def readyTrunk : State := trunkState 1 5 5 Trunk.reset Lane.reset Lane.reset
theorem witness_trunk_start : getF readyTrunk (LSTATE 95) = 1 ∧ (trunkAt readyTrunk 95).starting = false
    ∧ getF readyTrunk (MIN_LANES_M1 95) + 1 ≤ (trunkLanes readyTrunk 95).length ∧ readyLanes readyTrunk 95 = trunkLanes readyTrunk 95
    ∧ (trunkLanes readyTrunk 95).any (fun n => !(laneAt readyTrunk n).gotStart) = true := by decide +kernel
def startedTrunk : State :=
  trunkState 1 5 5 { Trunk.reset with starting := true, ownSet := [0, 95], partnerMask := some 1 } { Lane.reset with gotStart := true }
    { Lane.reset with gotStart := true }
theorem witness_trunk_starts : (trunkAt startedTrunk 95).starting = true ∧ startsIn startedTrunk 95 = true
    ∧ (trunkAt startedTrunk 95).partnerMask = some 1 ∧ 0 ∈ trunkLanes startedTrunk 95 ∧ getF startedTrunk (LANE_STATE 0) = 5
    ∧ (trunkAt startedTrunk 95).ownSet.contains 0 = true
    ∧ (1 : BitVec 16).getLsbD (getF startedTrunk (P_LOGICAL 0)) = true := by decide +kernel
theorem test_trunk_start : getF (ran (.trunkStart 95) startedTrunk) (LSTATE 95) = 2
    ∧ (trunkAt (ran (.trunkStart 95) readyTrunk) 95).ownSet = [0, 95] := by decide +kernel
def activeTrunk : State := trunkState 2 6 6 Trunk.reset Lane.reset Lane.reset
def lastLane : State := trunkState 2 6 1 Trunk.reset Lane.reset Lane.reset
theorem witness_lane_fail : trunkOfLane lastLane 0 = some 95 ∧ carriers lastLane 95 = [0] ∧ trunkOfLane activeTrunk 0 = some 95
    ∧ (carriers activeTrunk 95).contains 0 = true ∧ (carriers activeTrunk 95).erase 0 ≠ [] := by decide +kernel
theorem test_lane_fail : getF (ran (.laneFail 0 true) activeTrunk) (LSTATE 95) = 3
    ∧ getF (ran (.laneFail 0 true) lastLane) (LANE_STATE 0) = 1 := by decide +kernel
/-- A flit on lane 95 waits for that of lane 0, and both are taken when it comes (R294). -/
def waitingTrunk : State := trunkState 2 6 6 Trunk.reset Lane.reset { Lane.reset with rxNext := 1, held := [⟨9, 0⟩] }
theorem test_turn : (trunkAt (ran (.exch (rxOf 9 0 0)) waitingTrunk) 95).delivered = 2
    ∧ (trunkAt (ran (.exch (rxOf 9 95 0)) activeTrunk) 95).delivered = 0
    ∧ (laneAt (ran (.exch (rxOf 9 95 0)) activeTrunk) 95).held = [⟨9, 0⟩] := by decide +kernel
theorem witness_recover_req : getF activeTrunk (LSTATE 95) = 2 ∧ (trunkLanes activeTrunk 95).any (fun n =>
      (BitVec.ofNat 16 (pf (rxOn 0 0x100).payload 8 16)).getLsbD (getF activeTrunk (P_LOGICAL n))
        && ((carriers activeTrunk 95).contains n || getF activeTrunk (LANE_STATE n) == 5)) = true := by decide +kernel
def recovering : State := trunkState 3 6 6 Trunk.reset Lane.reset { Lane.reset with gotResume := true }
theorem witness_resume : trunkOfLane recovering 0 = some 95 ∧ getF recovering (LSTATE 95) = 3 ∧ (trunkAt recovering 95).starting = false
    ∧ getF recovering (LANE_STATE 0) = 6
    ∧ (activeLanes recovering 95).all (fun n => n == 0 || (laneAt recovering n).gotResume) = true := by decide +kernel
theorem test_resume : getF (ran (.resume (rxOn 0 0) 77) recovering) (LSTATE 95) = 2
    ∧ getF (ran (.resume (rxOn 0 0) 77) recovering) (LAST_RECOVER 95) = 77 := by decide +kernel

/-- Trunk 95 with flits 254, 255 and 0 of lane 0 unacknowledged. -/
def unackedTrunk : State :=
  let f : Flit := ⟨ftCtrl, 0⟩
  trunkState 2 6 6 { Trunk.reset with sent := [⟨0, 0, 254, f⟩, ⟨1, 0, 255, f⟩, ⟨2, 0, 0, f⟩] } { Lane.reset with resends := 6 } Lane.reset
theorem witness_fill : trafficTrunk unackedTrunk 0 = some 95 ∧ (trunkAt unackedTrunk 95).queue = []
    ∧ bitOf (rxOn 0 (255 + 2 ^ 17)).payload.toNat 16 = false ∧ bitOf (rxOn 0 (255 + 2 ^ 17)).payload.toNat 17 = true
    ∧ 0 < ackedCount (trunkAt unackedTrunk 95) 0 (BitVec.ofNat 8 (pf (rxOn 0 (255 + 2 ^ 17)).payload 0 8)) := by decide +kernel
theorem test_fill : (trunkAt (ran (.fill (rxOn 0 (255 + 2 ^ 17))) unackedTrunk) 95).sent = [⟨2, 0, 0, ⟨ftCtrl, 0⟩⟩] := by decide +kernel
theorem witness_replay : 0 < unacked (trunkAt unackedTrunk 95) 0 ∧ (laneAt unackedTrunk 0).resends < 7 := by decide +kernel
theorem witness_fec : getF (lane95 6 [(LANE_FEC_ON 95, 1)]) (LANE_STATE 95) = 6 ∧ flag (lane95 6 [(LANE_FEC_ON 95, 1)]) (LANE_FEC_ON 95) = true
    ∧ (laneAt (lane95 6 [(LANE_FEC_ON 95, 1)]) 95).uncorr < 3 := by decide +kernel
theorem test_fec : getF (ran (.fecCodeword 95 0 (some 4) 0) (lane95 6 [(LANE_FEC_ON 95, 1)])) (FEC_CORR 95) = 4 := by decide +kernel
/-- Level 0 thirty-two times, a stuffing pair that does not begin with 3, and 96 more symbols without runs (R286). -/
def badBlock : LineBlock := ⟨95, List.replicate 32 0 ++ [1, 0] ++ (List.replicate 48 [2, 1]).flatten⟩
theorem witness_crc_fail : badBlock.lane = 95 ∧ flitGood (wordOfBits ((laneAt (lane95 6 []) 95).rx.block (badBlock.symbols.map BitVec.toNat)).1) = false := by
  decide +kernel
theorem test_crc_fail : getF (ran (.flitCrcFail badBlock) (lane95 6 [])) (CRC_ERR 95) = 1
    ∧ getF (ran (.flitCrcFail badBlock) (lane95 6 [])) (STUFF_ERR 95) = 1 := by decide +kernel
/-- A PRBS7 checker of lane 95 that has seen 7 ones, one good bit short of its lock, or locked. -/
def checker (lock : Bool) : State :=
  setLane (lane95 9 [(PRBS_CHK 95, 1)]) 95 { Lane.reset with prbsLock := lock, prbsSeen := List.replicate 7 true, prbsGood := 63 }
theorem witness_prbs : getF (checker false) (LANE_STATE 95) = 9 ∧ prbsTaps (getF (checker false) (PRBS_CHK 95)) = some (7, 6)
    ∧ (laneAt (checker false) 95).prbsLock = false ∧ 7 ≤ (laneAt (checker false) 95).prbsSeen.length
    ∧ (laneAt (checker false) 95).prbsGood = 63 ∧ (laneAt (checker true) 95).prbsLock = true := by decide +kernel
theorem test_prbs : getF (ran (.prbsCheckerLock ⟨95, [false, true]⟩) (checker true)) (PRBS_ERR 95) = 1
    ∧ getF (ran (.prbsCheckerLock ⟨95, [false, true]⟩) (checker true)) (PRBS_BITS 95) = 2 := by decide +kernel
def lockedChecker : State := setLane (lane95 9 [(PRBS_BITS 95, 2 ^ 48 - 1)]) 95 { Lane.reset with prbsLock := true }
theorem witness_prbs_loss : (laneAt lockedChecker 95).prbsLock = true ∧ hostUp lockedChecker = true := by decide +kernel
theorem test_prbs_loss : getF (ran (.prbsLockLoss 95 1 1) lockedChecker) (PRBS_BITS 95) = 2 ^ 48 - 1
    ∧ getF (ran (.prbsClr 95) lockedChecker) (PRBS_BITS 95) = 0 := by decide +kernel

/-! ## System messages and global operations -/

/-- The linked device in a run state; its partner's trunk is UP. -/
def systemState (fs : List (Field × Nat)) : State := withRegs (linkFields ++ [(DIAMETER, 1)] ++ fs)
def ctrlRx (p : Nat) : Rx := rxOf 4 2 p
theorem witness_hello : deliversOn (systemState []) (ctrlRx 0x40) = true ∧ (ctrlRx 0x40).type = 4 ∧ csubOf (ctrlRx 0x40).payload = 0x40
    ∧ pf (ctrlRx 0x40).payload 8 9 = getF (systemState []) DEV_ID
    ∧ pf (ctrlRx (0x40 + 511 * 2 ^ 8 + 9 * 2 ^ 36)).payload 8 9 ≠ getF (systemState []) DEV_ID
    ∧ pf (ctrlRx (0x40 + 511 * 2 ^ 8 + 9 * 2 ^ 36)).payload 36 32 ≠ getF (systemState []) SYS_EPOCH := by decide +kernel
theorem witness_hello_up : pf (ctrlRx (0x40 + 511 * 2 ^ 8 + 9 * 2 ^ 36)).payload 36 32 = getF (systemState [(SYS_EPOCH, 9)]) SYS_EPOCH
    ∧ getF (systemState [(SYS_EPOCH, 9)]) SYS_EPOCH ≠ 0
    ∧ pf (ctrlRx (0x40 + 511 * 2 ^ 8 + 9 * 2 ^ 36)).payload 68 128 = (systemState [(SYS_EPOCH, 9)]).sys.deviceImage.toNat
    ∧ (systemState [(SYS_EPOCH, 9)]).sys.linkLevel.any (fun e => decide (0 < e.2.getD 0)) = false
    ∧ skewed (systemState [(SYS_EPOCH, 9)]) (getF (systemState [(SYS_EPOCH, 9)]) (TS_PARTNER_CYCLE 5))
        (getF (systemState [(SYS_EPOCH, 9)]) CYCLE_NUM) = false := by decide +kernel
theorem test_hello : getF (ran (.hello (ctrlRx (0x40 + 511 * 2 ^ 8 + 9 * 2 ^ 36))) (systemState [(SYS_EPOCH, 9), (TS_STATE 5, 1)])) (TS_STATE 5) = 2
    ∧ getF (ran (.hello (ctrlRx 0x40)) (systemState [])) (TS_REASON 5) = 3 := by decide +kernel
theorem witness_cycle_report : bitOf (ctrlRx (0x10 + 2 ^ 57)).payload.toNat 57 = true ∧ bitOf (ctrlRx (0x10 + 2 ^ 8)).payload.toNat 57 = false
    ∧ getF (systemState []) (TS_STATE 5) = 2 ∧ pf (ctrlRx (0x10 + 2 ^ 8)).payload 8 48 = getF (systemState []) (TS_PARTNER_CYCLE 5) + 1
    ∧ pf (ctrlRx (0x10 + 2 * 2 ^ 8)).payload 8 48 ≠ getF (systemState []) (TS_PARTNER_CYCLE 5) + 1
    ∧ pf (ctrlRx (0x10 + 2 * 2 ^ 8)).payload 8 48 ≠ 0 := by decide +kernel
theorem test_cycle_report : getF (ran (.cycleReport (ctrlRx (0x10 + 2 * 2 ^ 8))) (systemState [(SEQ_STATE, 2)])) SEQ_STATE = 4 := by decide +kernel
theorem witness_notices : (systemState [(SEQ_STATE, 2)]).sys.seen.contains (0x43, 511, 0) = false ∧ (systemState []).sys.stop = none
    ∧ (systemState []).sys.agreements = [] ∧ getF (systemState [(SEQ_STATE, 2)]) SEQ_STATE = 2
    ∧ flag (systemState [(SEQ_STATE, 2)]) IN_CYCLE = false ∧ flag (systemState [(SEQ_STATE, 2), (IN_CYCLE, 1)]) IN_CYCLE = true := by
  decide +kernel
theorem test_notices : getF (ran (.faultNotice (ctrlRx (0x44 + 511 * 2 ^ 8))) (systemState [(SEQ_STATE, 2)])) SYS_STOP_ORIGIN = 511
    ∧ getF (ran (.freeze (ctrlRx (0x45 + 511 * 2 ^ 8))) (systemState [(SEQ_STATE, 2)])) SEQ_STATE = 4
    ∧ getF (ran (.linkDown 5) (systemState [(SEQ_STATE, 2)])) SEQ_STATE = 4
    ∧ getF (ran (.linkDown 5) (systemState [(SEQ_STATE, 1)])) SEQ_STATE = 1 := by decide +kernel

theorem witness_announce : takeSlot (systemState []).sys.ops = (some 0, (systemState []).sys.ops)
    ∧ bitOf (ctrlRx (0x41 + 3 * 2 ^ 25 + 7 * 2 ^ 53)).payload.toNat 28 = false
    ∧ getF (systemState []) CYCLE_NUM < pf (ctrlRx (0x41 + 3 * 2 ^ 25 + 7 * 2 ^ 53)).payload 53 48 := by decide +kernel
/-- A global operation of a kind at cycle 9. -/
def opAt (kind : Nat) : Gop := ⟨some 0, 1, kind, false, false, 0, 0, 5, 9, 0, 0, 0, 0, 0, false, false, false, false, 0⟩
def withOp (kind : Nat) (fs : List (Field × Nat)) : State :=
  let s := withRegs ([(SEQ_STATE, 2), (CYCLE_NUM, 9), (SYS_LEVEL, 1)] ++ fs)
  { s with sys := { s.sys with ops := [opAt kind] } }
theorem witness_ready : readyTime (withOp 5 linkFields) = none
    ∧ readyCycle (withOp 5 linkFields) = some ⟨.cycleOps, 0, 0, 0, false, 9, 9⟩ ∧ upTrunks (withOp 5 linkFields) ≠ []
    ∧ (withOp 5 linkFields).sys.agreements = [] ∧ (withOp 5 linkFields).sys.syncs = [] := by decide +kernel
theorem witness_reset_at : (opAt 3).cycle = getF (withOp 3 []) CYCLE_NUM ∧ votesAbort (withOp 3 []) (opAt 3) = false
    ∧ upTrunks (withOp 3 []) = [] ∧ drained (withOp 3 []) = true ∧ flag (withOp 3 []) IN_CYCLE = false
    ∧ flag (withOp 3 []) IN_COMMIT = false := by decide +kernel
theorem test_reset_at : getF (ran .agreementReady (withOp 3 [])) CYCLE_NUM = 0
    ∧ (ran .agreementReady (withOp 3 [])).sys.ops = [{ opAt 3 with state := 3, round := 0 }] := by decide +kernel
def writing : State :=
  { stopped with sys := { stopped.sys with snap := [(1, { SnapSlot.empty with writing := true })] } }
theorem witness_write : writingSnap writing = true := by decide +kernel
theorem test_write : (ran .snapshotWriteComplete writing).sys.snap = [(1, { SnapSlot.empty with valid := true })] := by decide +kernel
/-- A snapshot of cycle 12 is being restored from slot 3. -/
def aSnapshot : Snapshot := { capture (withRegs [(CYCLE_NUM, 12)]) with cur := [(5, true)] }
def restoringState : State :=
  { stopped with sys := { stopped.sys with restoring := some (3, 1), contents := [(3, some aSnapshot)] } }
theorem witness_restore : mget restoringState.sys.contents none 3 = some aSnapshot ∧ areasGood restoringState 3 = true := by decide +kernel
theorem test_restore : getF (ran (.restoreComplete false) restoringState) CYCLE_NUM = 12
    ∧ (ran (.restoreComplete false) restoringState).eng.cur = [(5, true)] := by decide +kernel
theorem witness_gop_read : hostUp (withOp 3 []) = true ∧ opInSlot (withOp 3 []) 0 = some (opAt 3) := by decide +kernel

/-! ## Commands of the rings -/

/-- A packet with LENGTH of its parameters, for any device. -/
def packet (params : List Nat) : Packet :=
  ⟨1, 1, 77, BitVec.ofNat 16 params.length, 0x400000, 0, params.map (BitVec.ofNat 8)⟩
/-- One packet waits in ring `r`. -/
def ringOn (r : Nat) (s : State) : State := setFs s [(CR_ENABLE r, 1), (CR_SQ_PROD r, 1), (CR_SQ_LOG2 r, 0), (CR_CQ_LOG2 r, 0)]
/-- The status of the last reply in the first slot of the completion ring. -/
def statusIn (s : State) : Nat := rdBytes s.host 8 2
/-- Zeros. -/
def zeros (n : Nat) : List Nat := List.replicate n 0

/-- STOP_AT cycle 9 at cycle 3. -/
def gopPacket : Packet := packet (zeros 8 ++ [9] ++ zeros 23)
def gopStart : State := ringOn 1 (withRegs [(SEQ_STATE, 1), (CYCLE_NUM, 3)])
theorem witness_gop_command : Safety.Fetched gopStart 1 0x0420 gopPacket 32 .plain
    ∧ goParams 1 (countFetch gopStart 1) (ringRequest 1 0x0420 gopPacket) 0 = true ∧ goParams 3 (countFetch gopStart 1) (ringRequest 1 0x0422 gopPacket) 0 = true
    ∧ trunkMissing gopStart = false ∧ (takeSlot gopStart.sys.ops).1.isSome = true
    ∧ Safety.RoomFor gopStart (ringRequest 1 0x0420 gopPacket) := by decide +kernel
theorem test_gop_command : (ran (.stopAt 1 gopPacket) gopStart).sys.ops.map (fun g => (g.kind, g.cycle, g.state)) = [(1, 9, 1)]
    ∧ statusIn (ran (.stopAt 1 gopPacket) gopStart) = 1 := by decide +kernel
theorem witness_set_epoch : Safety.Fetched gopStart 1 0x0428 (packet [7, 0, 0, 0]) 4 .plain
    ∧ fieldAt (packet [7, 0, 0, 0]).params 0 4 ≠ 0 ∧ getF gopStart SEQ_STATE ≠ 2 := by decide +kernel
theorem test_set_epoch : getF (ran (.setEpoch 1 (packet [7, 0, 0, 0])) gopStart) SYS_EPOCH = 7
    ∧ getF (ran (.setEpoch 1 (packet [7, 0, 0, 0])) gopStart) (CR_CQ_PROD 1) = 1 := by decide +kernel
/-- Partition 15 sets the areas of its slot 3 in its empty regions. -/
def areaState : State := ringOn 16 (withRegs [(SEQ_STATE, 1)])
def areaPacket : Packet := packet ([15, 3] ++ zeros 70)
theorem witness_snap_area : Safety.Fetched areaState 16 0x0510 areaPacket 72 .plain
    ∧ fieldAt areaPacket.params 0 1 = (16 : BitVec 5).toNat - 1 ∧ fieldAt areaPacket.params 1 1 < 4 ∧ fieldAt areaPacket.params 2 6 = 0
    ∧ (∀ st < 4, rangeInRegion (countFetch areaState 16) 15 st (fieldAt areaPacket.params (8 + 16 * st) 8)
        (fieldAt areaPacket.params (16 + 16 * st) 8) = true) := by decide +kernel
def restoreStart : State :=
  { gopStart with sys := { gopStart.sys with contents := [(3, some { aSnapshot with deviceImage := gopStart.sys.deviceImage })] } }
theorem witness_restore_command : Safety.Fetched restoreStart 1 0x0511 (packet ([3] ++ zeros 7)) 8 .plain
    ∧ restoreOk (countFetch restoreStart 1) 3 = true ∧ restoreStart.sys.restoring = none := by decide +kernel
theorem test_restore_command : (ran (.restore 1 (packet ([3] ++ zeros 7))) restoreStart).sys.restoring = some (3, restoreStart.ctl.nextCall) := by
  decide +kernel
theorem witness_snap_info : Safety.Fetched areaState 16 0x0512 (packet ([15, 3] ++ zeros 6)) 8 .plain := by decide +kernel

/-- Lane and trunk 95 for the link commands. -/
def linkStart (st : Nat) : State := ringOn 1 (lane95 st [(ALIGN_MANUAL 95, 1), (SEQ_STATE, 1)])
theorem witness_link_commands : Safety.Fetched (linkStart 3) 1 0x0801 (packet ([95] ++ zeros 7)) 8 .plain
    ∧ Safety.Fetched (linkStart 3) 1 0x0802 (packet ([95, 127] ++ zeros 6)) 8 .plain ∧ flag (linkStart 3) (ALIGN_MANUAL 95) = true
    ∧ getF (linkStart 3) (LANE_STATE 95) = 3 ∧ Safety.Fetched (linkStart 3) 1 0x0803 (packet ([95, 7, 4, 1] ++ zeros 4)) 8 .plain
    ∧ prbsRefused (countFetch (linkStart 3) 1) 95 = false ∧ Safety.Fetched (linkStart 3) 1 0x0804 (packet ([95] ++ zeros 7)) 8 .plain
    ∧ Safety.Fetched (linkStart 3) 1 0x0805 (packet ([95] ++ zeros 7)) 8 .plain ∧ getF (linkStart 3) SEQ_STATE ≠ 2 := by decide +kernel
theorem test_link_commands : getF (ran (.linkPrbs 1 (packet ([95, 7, 4, 1] ++ zeros 4))) (linkStart 3)) (LANE_STATE 95) = 9
    ∧ (laneAt (ran (.linkSlip 1 (packet ([95, 127] ++ zeros 6))) (linkStart 3)) 95).offset = 127 := by decide +kernel

theorem witness_firmware : Safety.Fetched gopStart 1 0x0310 (packet (zeros 4 ++ [2] ++ zeros 11 ++ [0xAB, 0xCD])) 18 .plain
    ∧ fieldAt (packet (zeros 4 ++ [2] ++ zeros 11 ++ [0xAB, 0xCD])).params 8 8 = 0
    ∧ Safety.Fetched gopStart 1 0x0310 (packet (zeros 4 ++ [2] ++ zeros 3 ++ [1] ++ zeros 7)) 16 .plain
    ∧ Safety.Fetched gopStart 1 0x0311 (packet []) 0 .plain ∧ Safety.Fetched gopStart 1 0x0312 (packet ([0, 0, 1, 0] ++ zeros 4 ++ [9])) 9 .plain
    ∧ Safety.Fetched gopStart 1 0x0313 (packet []) 0 .plain ∧ gopStart.nv.commit = none
    ∧ Safety.RoomFor gopStart (ringRequest 1 0x0313 (packet []))
    ∧ Safety.Fetched gopStart 1 0x0314 (packet ([0xFF, 0xF, 1, 0] ++ zeros 4)) 8 .plain := by decide +kernel
theorem test_firmware : rdByte (ran (.fwWrite 1 (packet (zeros 4 ++ [2] ++ zeros 11 ++ [0xAB, 0xCD])) []) gopStart).nv.banks (bankSize + 1) = 0xCD
    ∧ rdByte (ran (.fwWrite 1 (packet (zeros 4 ++ [2] ++ zeros 3 ++ [1] ++ zeros 7)) [1, 2]) gopStart).nv.banks (bankSize + 1) = 2 := by
  decide +kernel
/-- The option words are being programmed for call 4. -/
def committing : State := { stopped with nv := { stopped.nv with commit := some 4 } }
theorem witness_opt_complete : committing.nv.commit = some 4 := by decide +kernel
theorem test_opt_complete : getF (ran (.optCommitComplete false) committing) OPT_DEFAULT = 1 := by decide +kernel
theorem test_selector : readSelector State.reset.nv.sel0 = some (0, false) ∧ readSelector (selectorBytes 7 true) = some (7, true)
    ∧ readSelector [] = none := by decide +kernel
theorem witness_selector : governing gopStart = some (0, 0, false) := by decide +kernel

/-! ## Loads -/

/-- A header of a stream of 70,000 bytes, and the packet that loads it: a full load, or a PARTIAL one of partition 15. -/
def header256 : List Byte :=
  [0x53, 0x4B, 0x39, 0x36, 1, 0, 0, 1] ++ List.replicate 6 0 ++ [1, 0] ++ List.replicate 16 0 ++ leBytes 8 70000
    ++ List.replicate 48 0 ++ leBytes 4 69808 ++ leBytes 4 192 ++ List.replicate 160 0
def imagePacket (mode part : Nat) : Packet :=
  packet ([mode, part, 0, 0, 1, 0, 1, 0] ++ (leBytes 8 70000).map BitVec.toNat ++ [9] ++ zeros 55)
/-- A ring with regions of 1,024 lines. -/
def loadStart (r part : Nat) : State :=
  ringOn r (withRegs ([(SEQ_STATE, 1)] ++ (List.range 4).map (fun st => (HBM_LINES part st, 1024))))
theorem witness_image_load : Safety.Fetched (loadStart 1 0) 1 0x0301 (imagePacket 0 0) 72 .plain ∧ loading (loadStart 1 0) = false
    ∧ (loadStart 1 0).load.unload = none ∧ banksFree (loadStart 1 0) = true ∧ getF (loadStart 1 0) SEQ_STATE ≠ 2
    ∧ Safety.RoomFor (loadStart 1 0) (ringRequest 1 0x0303 (imagePacket 0 0))
    ∧ check0101 (fun o => header256.getD o 0) = none ∧ lengths0102 (fun o => header256.getD o 0) 70000 = none
    ∧ fieldAt (imagePacket 0 0).params 8 8 = 70000
    ∧ (∀ st < 4, fieldAt (imagePacket 0 0).params (0x28 + 8 * st) 8 + stageLines 70000 ≤ getF (loadStart 1 0) (HBM_LINES 0 st)) := by
  decide +kernel
theorem witness_image_load_partial : Safety.Fetched (loadStart 16 15) 16 0x0301 (imagePacket 6 15) 72 .plain
    ∧ bitOf (fieldAt (imagePacket 6 15).params 0 1) 1 = true ∧ bitOf (fieldAt (imagePacket 6 15).params 0 1) 2 = true
    ∧ fieldAt (imagePacket 6 15).params 1 1 = (16 : BitVec 5).toNat - 1
    ∧ getF (loadStart 16 15) CYCLE_NUM < fieldAt (imagePacket 6 15).params 0x10 6 := by decide +kernel
theorem test_image_load : getF (ran (.imageLoad 1 (imagePacket 0 0) header256) (loadStart 1 0)) LOAD_PHASE = 1
    ∧ getF (ran (.imageLoad 1 (imagePacket 0 0) header256) (loadStart 1 0)) SEQ_STATE = 0
    ∧ getF (ran (.imageLoad 1 (imagePacket 0 0) []) (loadStart 1 0)) LOAD_PHASE = 7 := by decide +kernel

/-- A load of partition 15 in a phase. -/
def loadState (phase part : Nat) (x : Load) : State :=
  { ringOn 16 (withRegs [(SEQ_STATE, 1), (LOAD_PHASE, phase), (LOAD_PARTITION, 15), (LOAD_PARTIAL, part), (TILE_PARTITION 127, 15)]) with load := x }
def someLoad : Load := { Load.none with call := 1, len := 256, dtCount := 0 }
theorem witness_image_abort : Safety.Fetched (loadState 5 1 someLoad) 16 0x0302 (packet [15]) 1 .plain ∧ loading (loadState 5 1 someLoad) = true
    ∧ 15 = getF (loadState 5 1 someLoad) LOAD_PARTITION := by decide +kernel
theorem test_image_abort : getF (ran (.imageAbort 16 (packet [15])) (loadState 5 1 someLoad)) LOAD_PHASE = 7 := by decide +kernel
theorem witness_image_unload : Safety.Fetched (loadState 6 0 Load.none) 16 0x0303 (packet ([15] ++ zeros 7)) 8 .plain
    ∧ loading (loadState 6 0 Load.none) = false ∧ (loadState 6 0 Load.none).load.unload = none := by decide +kernel
def unloading : State := loadState 6 0 { Load.none with unload := some (1, 15) }
theorem witness_unload : unloading.load.unload = some (1, 15) ∧ flag unloading IN_CYCLE = false ∧ flag unloading IN_COMMIT = false
    ∧ getF unloading (TILE_PARTITION 127) = 15 ∧ hostUp unloading = true := by decide +kernel
theorem test_unload : getF (ran .unloadBoundary (setF unloading (TILE_GATED 127) 0)) (TILE_GATED 127) = 1 := by decide +kernel
theorem witness_fetch : loading (loadState 1 0 someLoad) = true ∧ getF (loadState 1 0 someLoad) LOAD_PHASE = 1
    ∧ ([] : List Byte).length = 272 * (loadState 1 0 someLoad).load.dtCount ∧ 256 + ([] : List Byte).length = (loadState 1 0 someLoad).load.len := by
  decide +kernel
theorem test_fetch : getF (ran (.loadFetchComplete [] []) (loadState 1 0 someLoad)) LOAD_PHASE = 2
    ∧ getF (ran (.hostLinkDmaError .imageStream) (loadState 1 0 someLoad)) LOAD_PHASE = 7 := by decide +kernel
theorem witness_verify : loading (loadState 2 0 someLoad) = true ∧ getF (loadState 2 0 someLoad) LOAD_PHASE = 2
    ∧ authDetail (loadState 2 0 someLoad) (staged (loadState 2 0 someLoad)) = some 0 := by decide +kernel
theorem test_verify : getF (ran .loadVerifyComplete (loadState 2 0 someLoad)) LOAD_PHASE = 7 := by decide +kernel
/-- The same with the staged line written under the partition's key. -/
def stagedState (phase part : Nat) (x : Load) : State :=
  let s := loadState phase part x
  { s with sec := { s.sec with gen := [(60, 5)], root := [(0, 1)], stamps := [⟨0, 0, 4, 10⟩] }, regs := (setFs s [(KS_VALID 0, 1), (KS_PARTITION 0, 15)]).regs }
theorem witness_staged : stageBad (stagedState 3 1 someLoad) = none ∧ (stageBad (loadState 3 0 someLoad)) = some (0, 0)
    ∧ (loadKey { stagedState 2 0 someLoad with hbm := [], sec := { (stagedState 2 0 someLoad).sec with stamps := [] } }).isSome = true
    ∧ stageBad { stagedState 2 0 someLoad with sec := { (stagedState 2 0 someLoad).sec with stamps := [] } } = some (0, 0)
    ∧ loadKey (loadState 2 0 someLoad) = none := by decide +kernel
theorem test_staged : getF (ran .loadWriteComplete (loadState 4 1 someLoad)) LOAD_PHASE = 7
    ∧ getF (ran .loadWriteComplete (loadState 4 1 someLoad)) ALARM = 1 := by decide +kernel
theorem witness_check : getF (loadState 3 0 someLoad) LOAD_PHASE = 3 ∧ (loadState 3 0 someLoad).load.resetDue = none := by decide +kernel
def wakingState : State := loadState 4 1 { someLoad with waking := [127] }
theorem witness_wake : wakingState.load.waking.contains (127 : BitVec 7).toNat = true := by decide +kernel
theorem test_wake : (ran (.tileWake 127) wakingState).load.waking = [] ∧ getF (ran (.tileWake 127) wakingState) WAKE_COUNT = 1 := by decide +kernel
theorem witness_write_complete : (stagedState 4 1 someLoad).load.waking = [] ∧ flag (stagedState 4 1 someLoad) LOAD_PARTIAL = true
    ∧ flag (stagedState 4 0 someLoad) LOAD_PARTIAL = false ∧ getF (loadState 4 0 someLoad) LOAD_PHASE = 4 := by decide +kernel
def resetDueState : State := loadState 5 1 { someLoad with resetDue := some 15 }
theorem witness_reset_due : resetDueState.load.resetDue = some 15 ∧ flag resetDueState IN_CYCLE = false ∧ flag resetDueState IN_COMMIT = false
    ∧ getF resetDueState (TILE_PARTITION 127) = 15 := by decide +kernel
def anIdent : ImageIdent := ⟨7, 8, 0, false, 0, 0, 0, [], [127]⟩
def releasing : State := loadState 5 1 { someLoad with ident := some anIdent }
theorem witness_release : releasing.load.ident = some anIdent ∧ releaseOpen releasing = true := by decide +kernel
theorem test_release : getF (ran .loadRelease releasing) LOAD_PHASE = 6 ∧ getF (ran .loadRelease releasing) (TILE_IN_RESET 127) = 0 := by
  decide +kernel

/-! ## Time and halt inputs -/

/-- The linked device with a time role. -/
def timeStart (fs : List (Field × Nat)) : State := systemState ([(TIME_CHILD0, 0x20), (TIME_PARENT, 5)] ++ fs)
theorem witness_sync_send : getF (timeStart [(TIME_ROLE, 2)]) TIME_ROLE = 2 ∧ children (timeStart [(TIME_ROLE, 2)]) = [5]
    ∧ (activeLanes (timeStart [(TIME_ROLE, 2)]) 5).head? = some 2 := by decide +kernel
def followerState : State :=
  let s := timeStart [(TIME_ROLE, 1), (TSTATE, 2), (TRUNK_MPD 5, 655)]
  { s with time := { s.time with mpdOk := [(5, true)], asked := [(5, some (3, 0))] } }
theorem witness_sync : trafficTrunk followerState (2 : BitVec 7).toNat = some 5 ∧ getF followerState TIME_ROLE = 1
    ∧ getF followerState TIME_PARENT = 5 ∧ mget followerState.time.mpdOk false 5 = true
    ∧ getF (timeStart [(TIME_ROLE, 1), (TIME_PARENT, 6)]) TIME_PARENT ≠ 5 := by decide +kernel
theorem test_sync : getF (ran (.timeSync (rxOf 3 2 0) []) (timeStart [(TIME_ROLE, 2)])) TIME_CONFLICT = 1 := by decide +kernel
theorem witness_pdelay : mget followerState.time.asked none 5 = some (3, 0) ∧ carriesTime followerState 5 = true
    ∧ getF followerState (LSTATE 5) = 2 := by decide +kernel
theorem test_pdelay : getF (ran (.pdelayResp (rxOf 3 2 ((2 ^ 64 - 10) * 2 ^ 128))) followerState) (TRUNK_MPD 5) = 5
    ∧ (ran (.pdelayReq (rxOf 3 2 0) 9) followerState).lnk.out.length = 1 := by decide +kernel
theorem witness_loss : getF followerState TSTATE = 2 := by decide +kernel
theorem test_loss : getF (ran .lossOfMaster followerState) TSTATE = 3 := by decide +kernel

/-- The Ethernet port of a Rooster with an EXTERNAL source, and of a follower. -/
def slavePort : State :=
  let s := withRegs [(SEQ_STATE, 1), (TIME_ROLE, 2), (TIME_SOURCE, 1), (ETH_ROLE, 2)]
  { s with time := { s.time with ethSync := some (7, 100, 5), ethReq := some (7, 300), ethPair := some (90, 100) } }
def masterPort : State := withRegs [(SEQ_STATE, 1), (TIME_ROLE, 1), (ETH_ROLE, 1)]
theorem witness_ptp : ptpSlave slavePort = true ∧ slavePort.time.ethMpd = none ∧ slavePort.time.ethSync = some ((7 : BitVec 16).toNat, 100, 5)
    ∧ slavePort.time.ethReq = some ((7 : BitVec 16).toNat, 300) ∧ slavePort.time.ethPair = some (90, 100) ∧ ptpMaster masterPort = true
    ∧ ethUp masterPort = true ∧ ptpHears slavePort ⟨1, false⟩ = false ∧ ptpHears slavePort ⟨ptpDomain slavePort, true⟩ = false := by decide +kernel
def slaveWithDelay : State := { slavePort with time := { slavePort.time with ethMpd := some 0 } }
theorem witness_ptp_servo : ptpSlave slaveWithDelay = true ∧ slaveWithDelay.time.ethMpd = some 0 := by decide +kernel
theorem test_ptp : (ran (.followUp (ptpFrame slavePort) 7 0 1 (2 ^ 64 - 1)) slavePort).time.ethPair = some (65540, 100)
    ∧ (ran (.delayResp (ptpFrame slavePort) 7 0 0 (2 ^ 64 - 310)) slavePort).time.ethMpd = some 10 := by decide +kernel

theorem witness_rate : hostUp gopStart = true ∧ getF gopStart TIME_ROLE = 0 ∧ Safety.Fetched gopStart 1 0x0904 (packet [0, 0, 0, 128]) 4 .plain
    ∧ getF followerState TIME_ROLE = 1 := by decide +kernel
theorem test_rate : getF (ran (.rateAdj 0x80000000) gopStart) RATE_ADJ = 2 ^ 32 - 500000
    ∧ getF (ran (.rateAdj 5) followerState) STEP_REFUSED = 1
    ∧ getF (ran (.timeRate 1 (packet [0, 0, 0, 128])) gopStart) RATE_ADJ = 2 ^ 32 - 500000 := by decide +kernel
theorem witness_time_get : Safety.Fetched gopStart 1 0x0901 (packet []) 0 .plain := by decide +kernel
def setPacket : Packet := packet (zeros 5 ++ [1, 0, 0] ++ [0xFF, 0xC9, 0x9A, 0x3B, 0xFF, 0xFF, 0, 0])
theorem witness_time_set : Safety.Fetched gopStart 1 0x0902 setPacket 16 .plain ∧ fieldAt setPacket.params 0 8 < 2 ^ 48
    ∧ fieldAt setPacket.params 8 4 < 1000000000 ∧ getF gopStart SEQ_STATE ≠ 2 := by decide +kernel
theorem test_time_set : (ran (.timeSet 1 setPacket) gopStart).time.ns = 999999999
    ∧ (ran (.timeSet 1 setPacket) gopStart).time.sec = 0x10000000000 := by decide +kernel
def pacedRunning : State := ringOn 1 (withRegs [(SEQ_STATE, 2), (SEQ_MODE, 1)])
def bigStep : Packet := packet [0, 0, 0xE8, 3, 1, 0, 0, 0]
theorem witness_time_step : Safety.Fetched pacedRunning 1 0x0903 bigStep 8 .plain ∧ getF pacedRunning SEQ_STATE = 2
    ∧ flag pacedRunning SEQ_MODE = true ∧ 65536000 < (signedOf 64 (fieldAt bigStep.params 0 8)).natAbs
    ∧ Safety.Fetched gopStart 1 0x0903 bigStep 8 .plain := by decide +kernel
theorem test_time_step : getF (ran (.timeStep 1 bigStep) pacedRunning) STEP_REFUSED = 1 ∧ (ran (.timeStep 1 bigStep) gopStart).time.ns = 66536 := by
  decide +kernel

def comparatorState (mode : Nat) : State :=
  let s := withRegs [(CMP_MODE 7, mode), (CMP_TARGET_NS 7, 10), (CMP_PERIOD_NS 7, 100)]
  { s with time := { s.time with ns := 310, armed := [(7, true)] } }
theorem witness_comparator : cmpDue (comparatorState 1) 7 = true ∧ getF (comparatorState 1) (CMP_MODE 7) ≠ 2
    ∧ cmpDue (comparatorState 2) 7 = true ∧ getF (comparatorState 2) (CMP_MODE 7) = 2 ∧ getF (comparatorState 2) (CMP_PERIOD_NS 7) ≠ 0
    ∧ hostUp (comparatorState 1) = true ∧ cmpOwner (comparatorState 1) 7 = 0 ∧ cmpOwner (withRegs [(SEQ_MODE, 1)]) 7 ≠ 0
    ∧ hostUp (withRegs [(SEQ_MODE, 1)]) = true := by decide +kernel
/-- Global operations own comparator 6: the earlier T is reached, and the comparator stands at the later one. -/
def opsWaiting : State :=
  let s := withRegs [(CMP_TARGET_NS 6, 10)]
  let g := { opAt 1 with byTime := true, ns := 10 }
  { s with time := { s.time with ns := 310 }, sys := { s.sys with ops := [g, { g with slot := some 1, ns := 500 }] } }
theorem witness_comparator_six : cmpOwner opsWaiting 6 = 2 ∧ opReached opsWaiting { opAt 1 with byTime := true, ns := 10 } = true := by
  decide +kernel
theorem test_comparator_six : (ran (.comparatorFire 6) opsWaiting).sys.ops.map (fun g => g.fired) = [true, false]
    ∧ getF (ran (.comparatorFire 6) opsWaiting) (CMP_TARGET_NS 6) = 500 := by decide +kernel
theorem test_comparator : getF (ran (.comparatorFire 7) (comparatorState 2)) (CMP_TARGET_NS 7) = 410
    ∧ mget (ran (.comparatorFire 7) (comparatorState 1)).time.armed false 7 = false
    ∧ mget (ran (.comparatorWrite 7 0 2) (comparatorState 0)).time.armed false 7 = true
    ∧ getF (ran (.comparatorWrite 7 3 0x10000) (comparatorState 0)) RSVD_WRITE = 1
    ∧ getF (ran (.comparatorWrite 7 5 0) (comparatorState 0)) UNMAPPED_ACCESS = 1 := by decide +kernel

/-- Halt channels of a running device that disagree. -/
def haltState (b c : Nat) (timed : Bool) : State :=
  let s := withRegs [(SEQ_STATE, 2), (HALT_A, b), (HALT_B, c)]
  { s with time := { s.time with disagree := timed } }
theorem witness_halt : flag (haltState 0 0 false) HALT_A = flag (haltState 0 0 false) HALT_B
    ∧ flag (haltState 1 0 true) HALT_A ≠ flag (haltState 1 0 true) HALT_B ∧ (haltState 1 0 true).time.disagree = true
    ∧ (99 : BitVec 32).toNat < haltDisc (haltState 1 0 true) ∧ getF (haltState 1 0 true) FAULT_CODE = 0
    ∧ hostUp (haltState 0 0 false) = true ∧ flag (haltState 1 0 true) HALT_A = true := by decide +kernel
theorem test_halt : getF (ran (.haltInput false false 99) (haltState 1 0 true)) HALT_MISMATCH = 1
    ∧ (ran (.haltInput true true 0) (haltState 0 0 false)).time.haltLatch = true
    ∧ getF (ran .haltDiscrepancy (haltState 1 0 true)) FAULT_CODE = 0x0602 := by decide +kernel

/-! ## Queues -/

/-- A record with DCYC 3 and a message of 77. -/
def someRecord : Record := { blankRecord with dcyc := 3, data := 77 }
/-- Queue `q` in service with a window and a spill ring. -/
def queueState (q : Nat) (x : Queue) (fs : List (Field × Nat)) : State :=
  setQueue (withRegs ([(SEQ_STATE, 1), (Q_ENABLE q, 1)] ++ fs)) q x
def inQ : State := queueState 16383 { Queue.empty with window := [blankRecord] } [(Q_HRING_EN 16383, 1), (Q_PROD 16383, 1), (Q_PARTITION 16383, 3)]
def outQ (w : List Record) : State :=
  queueState 32767 { Queue.empty with window := w } [(Q_HRING_EN 32767, 1), (Q_PROD 32767, 17), (Q_CONS_FETCHED 32767, 2), (Q_HRING_ADDR 32767, 5)]
theorem witness_hring : hostUp (queueState 5 Queue.empty [(Q_PROD 5, 9)]) = true
    ∧ flag (queueState 5 Queue.empty [(Q_PROD 5, 9)]) (Q_HRING_EN 5) = false ∧ hostUp inQ = true ∧ flag inQ (Q_HRING_EN 16383) = true := by
  decide +kernel
theorem test_hring : getF (ran (.hringEn 5) (queueState 5 Queue.empty [(Q_PROD 5, 9)])) (Q_PROD 5) = 0 := by decide +kernel
theorem witness_doorbell : getF inQ (Q_PARTITION 16383) = (4 : BitVec 5).toNat - 1
    ∧ diff32 ((16 : BitVec 64).toNat % 2 ^ 32) (getF inQ (Q_CONS_FETCHED 16383)) ≤ ringSlots inQ 16383
    ∧ ringSlots inQ 16383 < diff32 ((17 : BitVec 64).toNat % 2 ^ 32) (getF inQ (Q_CONS_FETCHED 16383))
    ∧ diff32 17 ((10 : BitVec 64).toNat % 2 ^ 32) ≤ diff32 17 (getF (outQ []) (Q_CONS_FETCHED 32767))
    ∧ getF inQ (Q_PARTITION 16383) ≠ (5 : BitVec 5).toNat - 1 := by decide +kernel
theorem test_doorbell : getF (ran (.doorbell 4 16383 (some 16)) inQ) (Q_PROD 16383) = 16
    ∧ getF (ran (.doorbell 0 16383 (some (2 ^ 32 + 17))) inQ) RSVD_WRITE = 1
    ∧ getF (ran (.doorbell 0 16383 (some 17)) inQ) (Q_DB_ERR 16383) = 1 ∧ getF (ran (.doorbell 5 16383 (some 2)) inQ) DB_REJECT = 1 := by
  decide +kernel
theorem witness_fetch_record : flag inQ (Q_ENABLE 16383) = true ∧ getF inQ (Q_CONS_FETCHED 16383) ≠ getF inQ (Q_PROD 16383)
    ∧ unitOf inQ 16383 = none ∧ (queueAt inQ 16383).spill = [] ∧ (queueAt inQ 16383).window.length < 32 := by decide +kernel
theorem test_fetch_record : (queueAt (ran (.hostRecordFetch 16383 [BitVec.ofNat 512 (3 + 77 * 2 ^ 256)] false) inQ) 16383).window
    = [blankRecord, someRecord] := by decide +kernel
/-- A queue whose spill ring holds two records, in lines 7 and 8 of stack 1; its ring has one more record for it. -/
def spilled : State :=
  let s := queueState 9 { Queue.empty with window := [blankRecord] } [(Q_SPILL_LOG2 9, 4), (Q_STACK 9, 1), (Q_BASE_LINE 9, 7), (HBM_LINES 0 1, 64),
    (Q_HRING_EN 9, 1), (Q_PROD 9, 1)]
  putSpill (putSpill { s with sec := { s.sec with gen := [(1, 5)] } } 9 someRecord) 9 blankRecord
theorem witness_spill : (queueAt spilled 9).spill = [⟨0, none, 0⟩, ⟨0, none, 0⟩] ∧ (queueAt spilled 9).window.length < 32
    ∧ tagGood spilled 0 1 (spillLine spilled 9 0) = true ∧ unitOf spilled 9 = none ∧ spillLine spilled 9 0 = 7
    ∧ (queueAt spilled 9).spill ≠ [] ∧ roomIn spilled 9 = true
    ∧ lineOfPartition spilled 0 1 (spillLine spilled 9 2) = true ∧ getF spilled (Q_CONS_FETCHED 9) ≠ getF spilled (Q_PROD 9) := by decide +kernel
theorem test_spill : (queueAt (ran (.spillRefill 9 false) spilled) 9).window.map (fun r => r.data) = [0, 77]
    ∧ getF (ran (.spillRefill 9 true) spilled) (QC_DROPPED 9) = 1
    ∧ rdByte (ran (.hostRecordFetch 9 [BitVec.ofNat 512 (77 * 2 ^ 256)] false) spilled).hbm (2 ^ 36 + 9 * 64 + 32) = 77 := by decide +kernel
theorem witness_outbound : hostSink (outQ [someRecord]) 32767 = true ∧ flag (outQ [someRecord]) (Q_HRING_EN 32767) = true
    ∧ hostRoom (outQ [someRecord]) 32767 = true ∧ headOf (outQ [someRecord]) 32767 = some someRecord := by decide +kernel
theorem test_outbound : rdByte (ran (.outboundRecordWrite 32767 false) (outQ [someRecord])).host (5 * 4096 + 64 + 32) = 77
    ∧ getF (ran (.outboundRecordWrite 32767 false) (outQ [someRecord])) (Q_PROD 32767) = 18
    ∧ rdByte (ran (.outboundRecordWrite 32767 false) (outQ [someRecord])).host 0 = 18 := by decide +kernel
def timed : State := queueState 9 { Queue.empty with unsignalled := 2 } [(Q_EV_TIMER 9, 100)]
theorem witness_ev_timer : getF timed (Q_EV_TIMER 9) ≠ 0 ∧ (queueAt timed 9).unsignalled ≠ 0 := by decide +kernel
theorem test_flr : getF (ran (.flr 4) inQ) (Q_HRING_EN 16383) = 0 ∧ getF (ran (.flr 5) inQ) (Q_HRING_EN 16383) = 1
    ∧ getF (ran (.flr 0) (ringOn 16 inQ)) (CR_ENABLE 16) = 0 := by decide +kernel

/-- Flow 511 of two queues whose NEXT is 77. -/
def flowState : State :=
  setQueue (queueState 16384 { Queue.empty with window := [{ blankRecord with data := 78 }] } [(Q_ENABLE 16385, 1), (Q_HRING_EN 16384, 1),
    (F_ENABLE 511, 1), (F_QBASE 511, 16384), (F_COUNT_M1 511, 1), (F_NEXT 511, 77)]) 16385 { Queue.empty with window := [someRecord] }
theorem witness_flow : flowServes flowState 511 = true
    ∧ (∀ m ∈ members flowState 511, ∀ h ∈ headOf flowState m, (flowSeq h + 65536 - getF flowState (F_NEXT 511)) % 65536 < 32768)
    ∧ nextMember flowState 511 = some 16385 ∧ headOf flowState 16385 = some someRecord
    ∧ hostRoom flowState (getF flowState (F_QBASE 511)) = true := by decide +kernel
theorem test_flow : getF (ran (.flowRelease 511) flowState) (F_NEXT 511) = 78
    ∧ getF (ran (.flowRelease 511) flowState) (Q_PROD 16384) = 1 := by decide +kernel
def remoteState (dev : Nat) : State :=
  setQueue (withRegs (linkFields ++ [(SEQ_STATE, 1), (DR_VALID 511, 1), (DR_TRUNK 511, 5), (Q_ENABLE 20000, 1), (Q_SINK 20000, 1),
    (Q_RCAP 20000, 4), (Q_RDEV 20000, dev)])) 20000 { Queue.empty with window := [someRecord], lent := 3 }
theorem witness_remote : flag (remoteState 511) (Q_ENABLE 20000) = true ∧ flag (remoteState 511) (Q_SINK 20000) = true
    ∧ (queueAt (remoteState 511) 20000).lent < getF (remoteState 511) (Q_RCAP 20000) ∧ headOf (remoteState 511) 20000 = some someRecord
    ∧ (routeOfDev (remoteState 511) (getF (remoteState 511) (Q_RDEV 20000))).isSome = true
    ∧ routeOfDev (remoteState 510) (getF (remoteState 510) (Q_RDEV 20000)) = none := by decide +kernel
theorem test_remote : (trunkAt (ran (.remoteForward 20000 false) (remoteState 511)) 5).sent.length = 2
    ∧ getF (ran (.remoteForward 20000 false) (remoteState 510)) FAULT_CODE = fcRouteUnbound := by decide +kernel
theorem witness_msg : deliversOn (remoteState 511) (rxOf 2 2 (3616 * 2 ^ 18 + 3 * 2 ^ 36 + 2 * 2 ^ 46)) = true
    ∧ getF (remoteState 511) (TS_STATE 5) = 2 ∧ pf (rxOn 2 (3616 * 2 ^ 18 + 3 * 2 ^ 36 + 2 * 2 ^ 46)).payload 0 9 = getF (remoteState 511) DEV_ID
    ∧ pf (rxOn 2 (3616 * 2 ^ 18 + 3 * 2 ^ 36 + 2 * 2 ^ 46)).payload 36 2 = 3 ∧ pf (rxOn 2 0).payload 36 2 = 0 := by decide +kernel
theorem test_msg : (queueAt (ran (.msg (rxOf 2 2 (3616 * 2 ^ 18 + 3 * 2 ^ 36 + 2 * 2 ^ 46))) (remoteState 511)) 20000).lent = 1 := by decide +kernel

/-- Partition 0 has 64 lines of stack 3 from line 1,000 on; the PF reads them through BAR4. -/
def bar4State : State := withRegs [(SEQ_STATE, 1), (HBM_BASE 0 3, 1000), (HBM_LINES 0 3, 64), (BAR4_BASE 0 3, 1000)]
def bar4Off : BitVec 36 := 3 * 2 ^ 34
theorem witness_bar4 : hostUp bar4State = true ∧ (bar4Lines bar4State 0 bar4Off.toNat 64).all (lineAllowed bar4State 0 3) = true
    ∧ (bar4Lines bar4State 0 bar4Off.toNat 64).all (lineGood bar4State 3) = false
    ∧ inSnapArea bar4State ((ownerOfLine bar4State 3 1000).getD 0) 3 1000 = false
    ∧ ¬ (bar4Lines bar4State 0 bar4Off.toNat 4097).all (lineAllowed bar4State 0 3) = true := by decide +kernel
/-- The line as a keyed partition finds it after the PF has written it. -/
def bar4Written : State :=
  let s := { bar4State with sec := { bar4State.sec with gen := [(3, 5)] } }
  ran (.bar4Access 0 bar4Off (.write (List.replicate 64 9)) .none false) s
theorem witness_bar4_read : (bar4Lines bar4Written 0 bar4Off.toNat 64).all (lineAllowed bar4Written 0 3) = true
    ∧ (bar4Lines bar4Written 0 bar4Off.toNat 64).all (lineGood bar4Written 3) = true
    ∧ inSnapArea bar4Written ((ownerOfLine bar4Written 3 1000).getD 0) 3 1000 = false := by decide +kernel
theorem test_bar4 : (ran (.bar4Access 0 bar4Off (.read 2) .none false) bar4Written).readData = 0x0909
    ∧ getF (ran (.bar4Access 0 bar4Off (.read 64) .none false) bar4State) (BAR4_ERR 0) = 2
    ∧ getF (ran (.bar4Access 2 0 (.read 4097) .none false) bar4State) (BAR4_ERR 2) = 1 := by decide +kernel
def oldEpoch : State := { bar4State with sec := { bar4State.sec with rights := some (1, []) } }
theorem witness_bar4_stale : oldEpoch.sec.rights.isSome = true ∧ hostUp oldEpoch = true := by decide +kernel

/-- Ring 16 of partition 15, which owns queue 32767, flow 511's queues, unit 63's queue and port 2047's tile. -/
def ownerState : State :=
  ringOn 16 (withRegs [(SEQ_STATE, 1), (Q_PARTITION 32767, 15), (TILE_PARTITION 127, 15), (QC_RECORDS 32767, 5)])
def queueSetPacket : Packet := packet ([0xFF, 0x7F] ++ zeros 6 ++ [0x3D, 0x12] ++ zeros 62)
theorem witness_queue_commands : Safety.Fetched ownerState 16 0x0A01 (packet ([0xFF, 0x7F] ++ zeros 6)) 8 .plain
    ∧ getF ownerState (Q_PARTITION 32767) = (16 : BitVec 5).toNat - 1 ∧ Safety.Fetched ownerState 16 0x0A02 queueSetPacket 72 .plain
    ∧ noReserved (queueWord 32767) (queueBase 32767) 0 (fieldAt queueSetPacket.params 8 64) 16 = true
    ∧ flag ownerState (Q_ENABLE 32767) = false ∧ flag ownerState (Q_HRING_EN 32767) = false
    ∧ bitsOf (fieldAt queueSetPacket.params 8 64) ((Q_PARTITION 32767).key - queueBase 32767 * 8) 4 = (16 : BitVec 5).toNat - 1
    ∧ Safety.Fetched ownerState 16 0x0A04 (packet ([0xFF, 7] ++ zeros 6)) 8 .plain
    ∧ getF ownerState (TILE_PARTITION (2047 / 16)) = (16 : BitVec 5).toNat - 1 := by decide +kernel
theorem test_queue_commands : getF (ran (.queueSet 16 queueSetPacket) ownerState) (Q_WIDTH_M1 32767) = 72
    ∧ getF (ran (.queueStats 16 (packet ([0xFF, 0x7F] ++ zeros 6))) ownerState) (QC_RECORDS 32767) = 0 := by decide +kernel
def flowSetPacket : Packet := packet ([0xFF, 1] ++ zeros 6 ++ [0xFF, 0x7F, 8, 0, 9, 0, 0, 0])
def crcSetPacket : Packet := packet ([63] ++ zeros 7 ++ [0x3F, 0xFE, 0xFF, 0] ++ zeros 28)
def dlogSetPacket : Packet := packet ([15] ++ zeros 39)
theorem witness_unit_commands : Safety.Fetched ownerState 16 0x0A05 flowSetPacket 16 .plain
    ∧ noReserved (flowWord 511) (flowBase 511) 0 (fieldAt flowSetPacket.params 8 8) 2 = true
    ∧ bitsOf (fieldAt flowSetPacket.params 8 8) ((F_QBASE 511).key - flowBase 511 * 8) 15 = 32767
    ∧ bitsOf (fieldAt flowSetPacket.params 8 8) ((F_COUNT_M1 511).key - flowBase 511 * 8) 4 = 0
    ∧ Safety.Fetched ownerState 16 0x0A06 crcSetPacket 40 .plain
    ∧ noReserved (crcWord 63) (crcBase 63) 0 (fieldAt crcSetPacket.params 8 32) 8 = true
    ∧ bitsOf (fieldAt crcSetPacket.params 8 32) ((U_QUEUE 63).key - crcBase 63 * 8) 15 = 32767
    ∧ Safety.Fetched ownerState 16 0x0A07 dlogSetPacket 40 .plain
    ∧ noReserved (dlogWord 15) (dlogBase 15) 0 (fieldAt dlogSetPacket.params 8 32) 8 = true
    ∧ dlogSetFits (countFetch ownerState 16) (ringRequest 16 0x0A07 dlogSetPacket) = true := by decide +kernel
theorem test_unit_commands : getF (ran (.flowSet 16 flowSetPacket) ownerState) (F_NEXT 511) = 9
    ∧ getF (ran (.crcSet 16 crcSetPacket) ownerState) (U_WIDTH_M1 63) = 31 := by decide +kernel

/-! ## Registers and events -/

/-- A 32-bit access of the PF. -/
def at32 (off : Nat) : Access := ⟨0, BitVec.ofNat 26 off, false, false⟩
/-- UNMAPPED_ACCESS is 3; CYCLE_NUM has a high word. -/
def readState : State := withRegs [(UNMAPPED_ACCESS, 3), (CYCLE_NUM, 5 * 2 ^ 32 + 7), (DIE_FENCED 3, 1)]
theorem witness_rc : hostUp readState = true ∧ barOffset (at32 0x518) = some 0x518 ∧ hostScratch readState 0x518 false none = none
    ∧ fencedAt readState 0x518 = false ∧ sealedAt readState 0x518 = false ∧ (clearedBy 0x518).length = 1 ∧ (∀ f ∈ clearedBy 0x518, getF readState f = 3) := by decide +kernel
theorem test_rc : getF (ran (.rcRead (at32 0x518)) readState) UNMAPPED_ACCESS = 0 ∧ (ran (.rcRead (at32 0x518)) readState).readData = 3 := by
  decide +kernel
theorem witness_latch : latchedBy 0x2010 = [0x2014] ∧ fencedAt readState 0x2010 = false ∧ hostScratch readState 0x2010 false none = none := by
  decide +kernel
theorem witness_trace_error : placeOf 0x980000 = .traceWindow ∧ fencedAt readState 0x980000 = false
    ∧ hostScratch readState 0x980000 false none = none := by decide +kernel
theorem test_latch : (ran (.latchingRead (at32 0x2010)) readState).readData = 7
    ∧ (ran (.latchingRead (at32 0x2014)) (setF (ran (.latchingRead (at32 0x2010)) readState) CYCLE_NUM 0)).readData = 5 := by decide +kernel
theorem witness_fenced : fencedAt readState 0x3FFFFFC = true ∧ barOffset (at32 0x3FFFFFC) = some 0x3FFFFFC
    ∧ hostScratch readState 0x3FFFFFC false none = none ∧ fencedAt readState (dieBase 3) = false := by decide +kernel
/-- Tile 127 belongs to partition 15, whose image is sealed (R426). -/
def sealedState : State := withRegs [(TILE_PARTITION 127, 15), (SEALED 15, 1)]
theorem witness_sealed_read : sealedAt sealedState 0x3D3FFFC = true ∧ fencedAt sealedState 0x3D3FFFC = false
    ∧ sealedAt sealedState 0x3D40FFC = true ∧ sealedAt sealedState (mmpBase 127 31) = true ∧ sealedAt sealedState (mmpBase 126 31) = false
    ∧ hostScratch sealedState 0x3D3FFFC false none = none ∧ barOffset (at32 0x3D3FFFC) = some 0x3D3FFFC := by decide +kernel
theorem test_sealed_read : getF (ran (.rcRead (at32 0x3D3FFFC)) sealedState) BAR0_ERR = 3 := by decide +kernel
theorem test_fenced : getF (ran (.rcRead (at32 0x3FFFFFC)) readState) BAR0_ERR = 1 := by decide +kernel

theorem witness_register_write : barOffset ⟨16, 0x10000, false, false⟩ = none ∧ barOffset ⟨17, 0, false, false⟩ = none ∧ placeOf 0x2110000 = .unmapped
    ∧ placeOf 0x3FFFFC = .unmapped ∧ barOffset (at32 (mpdBase 95 + 4)) = some (mpdBase 95 + 4)
    ∧ barOffset (at32 0x20200) = some evstatBase := by decide +kernel
def ringLockedState : State := withRegs [(CR_ENABLE 16, 1), (ROUTE_REFUSED, 1)]
theorem witness_locked : barOffset ⟨16, 8, false, false⟩ = some (crBase 16 + 8) ∧ flag ringLockedState (CR_ENABLE 16) = true
    ∧ (0x1000 : BitVec 64).toNat % 2 ^ 32 / 4096 ≠ getF ringLockedState (CR_SQ_BASE 16) % 2 ^ 20 := by decide +kernel
theorem test_register_write : getF (ran (.registerWrite (at32 (mpdBase 95 + 4)) 0xFFFFFFFF) readState) (TRUNK_ASYM 95) = 0xFFFFFFFF
    ∧ getF (ran (.registerWrite (at32 0x20200) 1) ringLockedState) ROUTE_REFUSED = 0
    ∧ getF (ran (.registerWrite (at32 0x20200) 0x80000001) ringLockedState) RSVD_WRITE = 1
    ∧ getF (ran (.registerWrite ⟨16, 8, false, false⟩ 0x1000) ringLockedState) (CR_SQ_BASE 16) = 0 := by decide +kernel

/-- Source 1,279, of tile 127 that partition 15 has, and queue 32,767 are pending; so is source 0 of partition 0. -/
def eventState : State :=
  withRegs [(TILE_PARTITION 127, 15), (Q_PARTITION 32767, 15), (evPend 1279, 1), (evPend 0, 1), (queuePend 32767, 1)]
theorem witness_events : hostUp eventState = true ∧ seesSource eventState 16 1279 = true ∧ seesSource eventState 16 0 = false
    ∧ seesQueue eventState 16 32767 = true ∧ foreignVector eventState 1279 (1024 + 15 * 64) = false
    ∧ foreignVector eventState 1279 (1024 + 14 * 64) = true := by decide +kernel
theorem test_events : getF (ran (.evPendClear 16 false 39 0x80000000) eventState) (evPend 1279) = 0
    ∧ getF (ran (.evPendClear 16 false 0 1) eventState) (evPend 0) = 1
    ∧ getF (ran (.evPendClear 16 true 1023 0x80000000) eventState) (queuePend 32767) = 0
    ∧ getF (ran (.evRoute 1279 (BitVec.ofNat 32 (1024 + 15 * 64 + 2 ^ 11))) eventState) (EVR_EN 1279) = 1
    ∧ getF (ran (.evRoute 1279 (BitVec.ofNat 32 (1024 + 14 * 64))) eventState) ROUTE_REFUSED = 1
    ∧ getF (ran (.evRoute 5 0x80000000) eventState) RSVD_WRITE = 1 := by decide +kernel
/-- Reserved bits of a clock schedule entry are counted and stay 0 (R17, R122). -/
theorem test_schedule_reserved : getF (ran (.registerWrite (at32 0x2104) 0x1FF) State.reset) RSVD_WRITE = 1
    ∧ mget (ran (.registerWrite (at32 0x2104) 0x1FF) State.reset).cyc.sched 0 0 = 0xFF00000000 := by decide +kernel

/-! ## Capture and trace -/

/-- Partition 0 has the regions that its capture rings of 8 lines need. -/
def capState (fs : List (Field × Nat)) : State :=
  withRegs ([(HBM_LINES 0 0, 64), (HBM_LINES 0 1, 64), (HBM_LINES 0 2, 64), (HBM_LINES 0 3, 64), (CAP_LINES 0, 8), (CAP_LINES 1, 8),
    (CAP_LINES 2, 8), (CAP_LINES 3, 8), (ACQ_PRE, 2), (ACQ_POST, 5), (RECORDS_WRITTEN, 9), (TRIGGERED, 1)] ++ fs)
theorem witness_arm : armRefusal (capState [(IN_CYCLE, 1), (ARM_CYCLE, 3)]) = rsOk ∧ atBoundary (capState [(IN_CYCLE, 1)]) = false
    ∧ armRefusal (capState []) = rsOk ∧ atBoundary (capState []) = true ∧ hostUp (capState []) = true
    ∧ getF (capState [(ARM_CYCLE, 3)]) CYCLE_NUM ≠ getF (capState [(ARM_CYCLE, 3)]) ARM_CYCLE
    ∧ armRefusal (capState [(ACQ_POST, 6)]) ≠ rsOk := by decide +kernel
theorem test_arm : getF (ran .acqCtrlArm (capState [])) ASTATE = 2 ∧ getF (ran .acqCtrlArm (capState [])) RECORDS_WRITTEN = 0
    ∧ getF (ran .acqCtrlArm (capState [(ACQ_POST, 6)])) ACQ_REFUSED = 1
    ∧ getF (ran .acqCtrlArmAt (capState [(ARM_CYCLE, 3)])) ASTATE = 1 := by decide +kernel
theorem witness_force : getF (capState [(ASTATE, 2), (ACQ_AUTO, 1)]) ASTATE = 2 ∧ getF (capState [(ASTATE, 2), (ACQ_AUTO, 1)]) ACQ_AUTO ≠ 0
    ∧ getF (capState [(ASTATE, 2), (ACQ_AUTO, 1)]) ACQ_AUTO ≤ (capState [(ASTATE, 2), (ACQ_AUTO, 1)]).acq.cycles + 1 := by decide +kernel
theorem test_force : (ran .autoTrigger (capState [(ASTATE, 2), (ACQ_AUTO, 1)])).acq.force = true
    ∧ (ran .acqCtrlForce (capState [(ASTATE, 2)])).acq.force = true ∧ (ran .acqCtrlForce (capState [(ASTATE, 3)])).acq.force = false := by
  decide +kernel
def capRing (fs : List (Field × Nat)) : State :=
  let s := ringOn 1 (capState (fs ++ [(SEQ_STATE, 1)]))
  { s with acq := { s.acq with entries := [(15, [⟨0x123, true, 0, 0, 0⟩])] } }
theorem witness_capture_commands : Safety.Fetched (capRing []) 1 0x0601 (packet (zeros 16)) 16 .plain
    ∧ armRefusal (capRing [(IN_CYCLE, 1)]) = rsOk ∧ atBoundary (capRing [(IN_CYCLE, 1)]) = false
    ∧ Safety.Fetched (capRing [(IN_CYCLE, 1)]) 1 0x0601 (packet (zeros 16)) 16 .plain
    ∧ Safety.Fetched (capRing []) 1 0x0601 (packet ([1] ++ zeros 7 ++ [9] ++ zeros 7)) 16 .plain ∧ armRefusal (capRing []) = rsOk
    ∧ getF (capRing []) CYCLE_NUM ≠ 9 := by decide +kernel
theorem witness_capture_commands2 : Safety.Fetched (capRing []) 1 0x0601 (packet ([2, 7] ++ zeros 14)) 16 .plain
    ∧ Safety.Fetched (capRing [(ASTATE, 2)]) 1 0x0602 (packet []) 0 .plain ∧ Safety.Fetched (capRing [(ASTATE, 2)]) 1 0x0603 (packet []) 0 .plain
    ∧ Safety.Fetched (capRing [(ASTATE, 2)]) 1 0x0604 (packet []) 0 .plain
    ∧ Safety.Fetched (capRing []) 1 0x0605 (packet ([15] ++ zeros 7 ++ [1] ++ zeros 15)) 24 .plain
    ∧ (mapEntries (capRing []) 15).length = 1 := by decide +kernel
theorem test_capture_commands : getF (ran (.acqArm 1 (packet ([2, 7] ++ zeros 14))) (capRing [])) ASTATE = 1
    ∧ statusIn (ran (.acqArm 1 (packet ([2, 7] ++ zeros 14))) (capRing [])) = 0 := by decide +kernel

/-- The transaction engine's FIFO holds a packet; the buffer is the sink. -/
def traceState (fs : List (Field × Nat)) : State :=
  let s := ringOn 1 (withRegs (fs ++ [(SEQ_STATE, 1)]))
  { s with trc := { s.trc with fifo := [(16, [(0x31, [1, 2])])], since := 600 } }
theorem witness_trace : Safety.Fetched (traceState []) 1 0x0701 (packet ([0, 0x40, 1] ++ zeros 5)) 8 .plain
    ∧ flag (traceState []) TRC_EN = false ∧ Safety.Fetched (traceState [(TRC_EN, 1)]) 1 0x0702 (packet []) 0 .plain
    ∧ nextSource (traceState [(TRC_EN, 1)]) ≠ none ∧ Safety.RoomFor (traceState [(TRC_EN, 1)]) (ringRequest 1 0x0702 (packet []))
    ∧ Safety.Fetched (capRing []) 1 0x0702 (packet []) 0 .plain ∧ nextSource (capRing []) = none
    ∧ syncEvery (traceState [(TRC_EN, 1), (TRC_TE_EN, 1), (TRC_SYNC_PERIOD, 1)]) = some 1024
    ∧ syncEvery (traceState [(SEQ_STATE, 1), (TRC_SYNC_PERIOD, 0)]) = none := by decide +kernel
theorem test_trace : getF (ran (.trcEnable 1 (packet ([0, 0x40, 1] ++ zeros 5))) (traceState [])) TRC_EN = 1
    ∧ getF (ran (.trcEnable 1 (packet ([0, 0x40, 1] ++ zeros 5))) (traceState [])) TRC_WPTR = 40 := by decide +kernel
def draining : State :=
  let s := ran (.trcDisable 1 (packet [])) (traceState [(TRC_EN, 1)])
  s
theorem witness_draining : draining.trc.drain = some State.reset.ctl.nextCall ∧ draining.ctl.calls.length = 1 := by decide +kernel
theorem test_draining : (ran .traceDrainComplete draining).ctl.calls = [] ∧ getF (ran .traceDrainComplete draining) TRC_WPTR = 6 := by
  decide +kernel
def lostState : State :=
  let s := traceState [(TRC_EN, 1), (TRC_TE_EN, 1)]
  { s with trc := { s.trc with lost := [(16, 77)], since := 2000 } }
theorem witness_overflow : overflowSource lostState = some 16 := by decide +kernel
theorem test_overflow : getF (ran .trcOverflow lostState) TRC_OVERFLOW_BIT = 1 ∧ (ran .trcOverflow lostState).trc.lost = [] := by decide +kernel
def syncState : State := { lostState with regs := (setF lostState TRC_SYNC_PERIOD 1).regs }
theorem witness_sync_point : syncEvery syncState = some 1024 ∧ flag syncState TRC_EN = true ∧ 1024 ≤ syncState.trc.since := by decide +kernel
theorem test_sync_point : (ran .syncPoint syncState).trc.since = 0 := by decide +kernel

/-! ## The adapter fabric -/

/-- Column 0: cell 0 is a registered constant 1 clocked by RCLK 0 (REG bit 72), FIFO 0 is an OUT FIFO of 8 bits whose RE is line 0,
the constant 1. -/
def fabricState (fs : List (Field × Nat)) : State :=
  let s := setFs State.reset ([(TAF_CONFIGURED, 1), (TIN_READY, 1)] ++ fs)
  { s with taf := { s.taf with
    cfg := wrBytes (wrBytes (wrBytes [] 0 16 (2 ^ 72 + 0xFFFF)) (0x8200 + 292) 2 0x3FFF) 0x8980 8 1
    fifo := [(0, [7, 8])], tbRclk := 1 } }
theorem witness_edge : risingClocks (seeMhz (fabricState []) [(0, true)] 400) [(0, true)] = List.range 64
    ∧ dividerRuns (seeMhz (fabricState []) [(0, true)] 400) 15 3 = true ∧ dividerOver (seeMhz (fabricState []) [(0, true)] 401) 15 3 = true
    ∧ sourceEdge [(0, true)] (dividerSrc (fabricState []) 15 3) = some true
    ∧ usedCells (fabricState []) = [0] ∧ cellClock (fabricState []) 0 = 0 ∧ fifoOn (fabricState []) 0 = true
    ∧ fifoIn (fabricState []) 0 = false ∧ rclkNo 0 (bitsOf (fifoWord (fabricState []) 0) 4 2) = 0 := by decide +kernel
theorem test_edge : ffEdge (fabricState []) 0 [0] = [(0, true)]
    ∧ fifoWords (fifoEdge (fabricState []) (fabricState []) 0 [0] 0) 0 = [8]
    ∧ getF (ran (.fabricClockEdge [(0, true)] 401) (fabricState [])) (CLK_OVER 0) = 1 := by decide +kernel
theorem test_scrub : getF (ran (.scrub true true) (withRegs [(OFF_ON_UNCORR, 1), (FAB_OE, 1)])) FAB_OE = 0
    ∧ getF (ran (.scrub true true) (withRegs [(FAB_OE, 1)])) FAB_OE = 1
    ∧ getF (ran (.scrub true true) State.reset) TAF_CFG_UNCORR = 1 := by decide +kernel
theorem witness_pin : (767 : BitVec 10).toNat < 768 ∧ ran (.targetPinInput 767 true) State.reset ≠ State.reset
    ∧ ran (.targetPinInput 768 true) State.reset = State.reset := by decide +kernel
def switchState : State :=
  let s := withRegs [(REGION_SEL 15, 0x55)]
  { s with taf := { s.taf with moving := [(63, some ⟨3, 0, true, 2⟩)] } }
theorem witness_switch : switchOf switchState 63 = some ⟨3, 0, true, 2⟩ ∧ switchDone switchState 63 = true := by decide +kernel
/-- DIV_M1 = 2: the output is high for two of three source periods; a multiplexer that leaves the clock holds it low from its falling edge. -/
def dividedState (phase : Nat) : State :=
  let s := fabricState [(REGION_DIV 0, 0x20)]
  { s with taf := { s.taf with phase := [(0, phase)], moving := [(0, some ⟨1, 0, false, 0⟩)] } }
theorem test_divider : (risingClocks (dividedState 3) [(0, true)]).contains 0 = true
    ∧ (risingClocks (dividedState 1) [(0, true)]).contains 0 = false
    ∧ heldLow (moveClocks (dividedState 2) [(0, true)]) 0 = true ∧ heldLow (moveClocks (dividedState 1) [(0, true)]) 0 = false := by decide +kernel
theorem test_switch : getF (ran (.muxSwitchComplete 63) switchState) (REGION_SEL 15) = 0xD5
    ∧ getF (ran (.muxForced 63) switchState) TAF_MUX_FORCED = 1 := by decide +kernel
def toggled : State :=
  let s := fabricState []
  { s with taf := { s.taf with toggle := true, hold := [(4095, true)], flip := true, copy1 := [(9, true)] } }
theorem witness_toggled : toggled.taf.toggle = true ∧ clockRuns toggled (tbClock toggled) = true ∧ toggled.taf.flip = true := by decide +kernel
theorem test_toggled : (ran .toutTransfer toggled).taf.out = [(4095, true)] ∧ readCopy (ran .tinCommit toggled) = [(9, true)] := by
  decide +kernel

/-- I2C block 5 is enabled and holds bytes. -/
def fbState (n : Nat) : State :=
  let s := withRegs [(FB_ENABLE 5, 1), (FB_EN, 1)]
  { s with taf := { s.taf with tx := [(5, List.replicate n 1)], rx := [(5, List.replicate n 2)] } }
theorem witness_fallback : hostUp (fbState 15) = true ∧ flag (fbState 15) (FB_ENABLE 5) = true ∧ flag (fbState 15) FB_EN = true ∧ flag (fbState 15) (BANK_PGOOD 7) = true ∧ (fbTx (fbState 15) 5).length = 15
    ∧ (fbTx (fbState 16) 5).length = 16 ∧ fbRx (fbState 1) 5 = [2] ∧ fbRx (fbState 0) 5 = [] := by decide +kernel
theorem test_fallback : (fbTx (ran (.fallbackDataWrite 5 9) (fbState 15)) 5).getLast? = some 9
    ∧ (ran (.fallbackDataRead 5) (fbState 1)).readData = 2 ∧ fbRx (ran (.fallbackDataRead 5) (fbState 1)) 5 = []
    ∧ getF (ran (.fallbackRxByte 5 9 false) (fbState 16)) (FB_RX_DROP 5) = 1
    ∧ getF (ran (.fallbackRxByte 5 9 true) (fbState 0)) (FB_NAK 5) = 1 := by decide +kernel
def tafRing : State := ringOn 1 (fabricState [(SEQ_STATE, 1), (TIO_DISABLED, 1)])
theorem witness_taf_commands : Safety.Fetched tafRing 1 0x0D01 (packet ([1, 255] ++ zeros 6)) 8 .plain
    ∧ Safety.Fetched tafRing 1 0x0D02 (packet []) 0 .plain ∧ Safety.Fetched tafRing 1 0x0D03 (packet ([15, 3, 3] ++ zeros 5)) 8 .plain
    ∧ switchOf tafRing 63 = none ∧ Safety.RoomFor tafRing (ringRequest 1 0x0D03 (packet ([15, 3, 3] ++ zeros 5)))
    ∧ Safety.Fetched tafRing 1 0x0D04 (packet ([15, 3, 15, 255] ++ zeros 4)) 8 .plain ∧ dividerUsed tafRing 15 3 = false
    ∧ Safety.Fetched tafRing 1 0x0D05 (packet ([63] ++ zeros 7)) 8 .plain := by decide +kernel
theorem test_taf_commands : getF (ran (.tafOutputs 1 (packet ([1, 255] ++ zeros 6))) tafRing) FAB_OE = 1
    ∧ getF (ran (.tafOutputs 1 (packet ([1, 255] ++ zeros 6))) tafRing) TIO_DISABLED = 0
    ∧ getF (ran (.tafClkcfg 1 (packet ([15, 3, 15, 255] ++ zeros 4))) tafRing) (REGION_DIV 15) = 0xFFF * 2 ^ 48
    ∧ switchOf (ran (.tafClksel 1 (packet ([15, 3, 3] ++ zeros 5))) tafRing) 63 = some ⟨3, State.reset.ctl.nextCall, false, 0⟩ := by decide +kernel

/-! ## The tile service agent -/

/-- Logical cluster 0 has an EVAL that writes slot 7; port 31 holds words of 256 bits on die. -/
def agentState (run : Nat) : State :=
  ringOn 1 (setFs (wordState (iw 0x01 7 5 6 6 6 0x0002) (portFields ++ [(MMP_BIND 0 31, 1), (MMP_DWIDTH_M1 0 31, 255),
    (MMP_DEPTH_M1 0 31, 9)])) [(SEQ_STATE, run), (IN_CYCLE, 0)])
/-- An address block: kind, port, logical cluster 0, count, first item, and 32 bytes of value 1 for a DEPOSIT. -/
def block16 (kind port count addr : Nat) : List Nat := [kind, port, 0, 0, count % 256, count / 256, 0, 0] ++ [addr % 256, addr / 256] ++ zeros 6
def block48 (kind port count addr : Nat) : List Nat := block16 kind port count addr ++ [1] ++ zeros 31
/-- The conditions of a PEEK, and those of a DEPOSIT. -/
def peekReady (s : State) (l : List Nat) : Bool :=
  let q := ringRequest 1 0x0501 (packet l)
  let a := countFetch s 1
  decide (Safety.Fetched s 1 0x0501 (packet l) 16 .target) && abHalf a q == some 0 && abRight rtObserve a q 0 && abOk a q
    && !tileFenced a 0
def depositReady (s : State) (l : List Nat) : Bool :=
  let q := ringRequest 1 0x0502 (packet l)
  let a := countFetch s 1
  decide (Safety.Fetched s 1 0x0502 (packet l) 48 .target) && abHalf a q == some 0 && abRight rtForce a q 0 && abOk a q
    && !tileFenced a 0
theorem witness_peek : peekReady (agentState 1) (block16 2 0 256 0xFF00) = true ∧ peekReady (agentState 1) (block16 3 31 0 9) = true
    ∧ isFailure (foundError (agentState 1) 0 31 9 .none) = false ∧ peekReady (agentState 1) (block16 0 0 256 0x700) = true
    ∧ peekReady (agentState 2) (block16 1 0 256 0) = true
    ∧ Safety.RoomFor (agentState 2) (ringRequest 1 0x0501 (packet (block16 1 0 256 0))) := by decide +kernel
theorem test_peek : rdByte (ran (.peek 1 (packet (block16 0 0 3 5)) .none) (agentState 1)).host 24 = 1
    ∧ (ran (.peek 1 (packet (block16 0 0 3 5)) .none) (agentState 2)).ctl.peeks.length = 1 := by decide +kernel
theorem witness_deposit : depositReady (agentState 2) (block48 2 0 256 0xFF00) = true ∧ depositReady (agentState 1) (block48 2 0 256 0xFF00) = true
    ∧ depositReady (agentState 1) (block48 3 31 0 9) = true ∧ onDie (agentState 1) 0 31 = true ∧ 64 ≤ swidth (agentState 1) 0 31
    ∧ Safety.RoomFor (agentState 2) (ringRequest 1 0x0502 (packet (block48 2 0 256 0xFF00))) := by decide +kernel
theorem test_deposit : (ran (.deposit 1 (packet (block48 2 0 2 0xFFFE)) .none) (agentState 1)).eng.cur = [(0xFFFE, true)]
    ∧ readModel (ran (.deposit 1 (packet (block48 3 31 0 9)) .none) (agentState 1)) 0 31 9 = 1
    ∧ (mget (ran (.deposit 1 (packet (block48 3 31 0 9)) .none) (agentState 2)).cyc.held [] 0).length = 1 := by decide +kernel
def forcePacket : Packet := packet ([1, 1] ++ zeros 6 ++ [0, 0, 7, 0])
def releasePacket : Packet := packet ([1] ++ zeros 7 ++ [0, 0, 7, 0])
def forceReady (s : State) (c : Cmd) (p : Packet) : Bool :=
  let q := ringRequest 1 c.opcode p
  let a := countFetch s 1
  decide (Safety.Fetched s 1 c.opcode p 12 .target) && c.right a q 0 && c.params a q 0 && c.ready a q 0 == 0
theorem witness_force_slots : forceReady (agentState 1) cmdForce forcePacket = true ∧ forceReady (agentState 2) cmdForce forcePacket = true
    ∧ ((forceGroup (agentState 1) (ringRequest 1 0x0503 forcePacket)).words.map Prod.fst).Nodup := by decide +kernel
def forcedState : State := ringOn 1 (setF (ran (.force 1 forcePacket) (agentState 1)) (CR_SQ_PROD 1) 2)
def forcedNext : State := setF forcedState (CR_SQ_PROD 1) 2
theorem witness_release_command : forceReady forcedNext cmdRelease releasePacket = true
    ∧ ((releaseGroup forcedNext (ringRequest 1 0x0504 releasePacket)).words.map Prod.fst).Nodup
    ∧ Safety.Fetched forcedNext 1 0x0505 (packet (zeros 8)) 8 .target
    ∧ holdsRight forcedNext 0 (scPart (ringRequest 1 0x0505 (packet (zeros 8)))) rtObserve = true := by decide +kernel
theorem test_force_slots : (mget forcedNext.eng.imem 0 0).toNat % 2 ^ 16 = 0xFFFF
    ∧ mget (ran (.release 1 releasePacket) forcedNext).eng.imem 0 0 = mget (agentState 1).eng.imem 0 0
    ∧ (ran (.release 1 releasePacket) forcedNext).ctl.forced = [] := by decide +kernel

/-! ## Partitions, keys and copies -/

def secState (fs : List (Field × Nat)) : State := ringOn 1 (withRegs ([(SEQ_STATE, 1), (RIGHTS_EPOCH, 65535), (HBM_LINES 0 3, 0x1F7F0000)] ++ fs))
def regionPacket : Packet := packet ([15, 3] ++ zeros 6 ++ [0, 0, 0x7F, 0x1F] ++ zeros 4 ++ [0, 0, 1] ++ zeros 5)
def rightsPacket : Packet := packet ([15] ++ zeros 7 ++ List.replicate 16 63)
theorem witness_partitions : flag (secState []) RIGHTS_PENDING = false ∧ Safety.Fetched (secState []) 1 0x0B01 (packet ([127, 15] ++ zeros 6)) 8 .plain
    ∧ hasImage (secState []) 15 = false ∧ Safety.Fetched (secState []) 1 0x0B02 regionPacket 24 .plain
    ∧ regionOk (secState []) 15 3 0x1F7F0000 0x10000 = true ∧ fieldAt regionPacket.params 8 8 = 0x1F7F0000
    ∧ Safety.Fetched (secState []) 1 0x0B03 rightsPacket 24 .plain ∧ (∀ x < 16, fieldAt rightsPacket.params (8 + x) 1 < 64)
    ∧ Safety.RoomFor (secState []) (ringRequest 1 0x0B03 rightsPacket) := by decide +kernel
theorem test_partitions : getF (ran (.partTileSet 1 (packet ([127, 15] ++ zeros 6))) (secState [])) (TILE_PARTITION 127) = 15
    ∧ getF (ran (.partTileSet 1 (packet ([127, 15] ++ zeros 6))) (secState [])) RIGHTS_EPOCH = 0
    ∧ getF (ran (.partRegionSet 1 regionPacket) (secState [])) (HBM_LINES 15 3) = 0x10000
    ∧ getF (ran (.setRights 1 rightsPacket) (secState [])) (RIGHTS 15 15) = 63 := by decide +kernel
/-- SET_RIGHTS is call 9; PEEK 4 of the old epoch waits. -/
def drainState : State :=
  let s := secState [(RIGHTS_PENDING, 1)]
  { s with
    sec := { s.sec with rights := some (9, [4]) }
    ctl := { s.ctl with calls := [⟨4, .ring 1, 0x0501, 1, false, 0, 0⟩, ⟨9, .ring 1, 0x0B03, 2, false, 0, 0⟩], peeks := [⟨4, 0, false, [5]⟩] } }
theorem witness_drain : drainState.sec.rights = some (9, [4]) ∧ openRequests drainState = [4] := by decide +kernel
theorem test_drain : (ran .rightsDrain drainState).ctl.calls = [] ∧ statusIn (ran .rightsDrain drainState) = 0x42 := by decide +kernel

def keyPacket : Packet := packet ([31, 0, 15] ++ zeros 5 ++ [0xAB] ++ zeros 30 ++ [0x80])
theorem witness_keys : Safety.Fetched (secState []) 1 0x0B04 keyPacket 40 .plain ∧ slotUsed (secState []) 31 = false
    ∧ Safety.Fetched (secState []) 1 0x0B04 (packet ([31, 1, 15] ++ zeros 165)) 168 .plain
    ∧ Safety.Fetched (secState []) 1 0x0B05 (packet ([31] ++ zeros 7)) 8 .plain
    ∧ Safety.Fetched (secState []) 1 0x0B06 (packet ([15] ++ zeros 103)) 104 .plain ∧ hasImage (secState []) 15 = false
    ∧ Safety.Fetched (secState []) 1 0x0B0A (packet []) 0 .plain := by decide +kernel
theorem test_keys : mget (ran (.keyInstall 1 keyPacket) (secState [])).sec.root 0 31 = BitVec.ofNat 256 (0xAB + 0x80 * 2 ^ 248)
    ∧ getF (ran (.keyErase 1 (packet ([31] ++ zeros 7))) (secState [(KS_VALID 31, 1)])) (KS_VALID 31) = 0
    ∧ (mget (ran (.sealKeySet 1 (packet ([15] ++ zeros 103))) (secState [])).sec.signKey [] 15).length = 96 := by decide +kernel

/-- Partition 0 has lines 10 to 11 of stack 3 under key 1, written. -/
def rekeyState (fs : List (Field × Nat)) : State :=
  let s := secState ([(HBM_BASE 0 3, 10), (HBM_LINES 0 3, 2)] ++ fs)
  { s with sec := { s.sec with gen := [(3, 1)], nextGen := 2, stamps := [⟨3, 10, 2, 2⟩] } }
theorem witness_rekey : Safety.Fetched (rekeyState []) 1 0x0B07 (packet ([0, 3, 255] ++ zeros 5)) 8 .plain
    ∧ getF (rekeyState []) (RK_STATE 3) = 0 ∧ 0 < getF (rekeyState []) (HBM_LINES 0 3)
    ∧ Safety.RoomFor (rekeyState []) (ringRequest 1 0x0B07 (packet ([0, 3, 255] ++ zeros 5))) := by decide +kernel
def rekeying : State := ran (.rekey 1 (packet ([0, 3, 255] ++ zeros 5))) (rekeyState [])
theorem witness_rekeying : getF rekeying (RK_STATE 3) = 1 ∧ getF rekeying (RK_BOUNDARY 3) = 10 ∧ getF rekeying (RK_END 3) = 12
    ∧ inSnapArea rekeying 0 3 10 = false ∧ tagGood rekeying 0 3 10 = true
    ∧ tagGood (ran (.rekeyLine 3 false) rekeying) 0 3 11 = true ∧ getF (ran (.rekeyLine 3 false) rekeying) (RK_BOUNDARY 3) = 11 := by
  decide +kernel
theorem test_rekeying : getF (ran (.rekeyLine 3 false) (ran (.rekeyLine 3 false) rekeying)) (RK_STATE 3) = 2
    ∧ getF (ran (.rekeyLine 3 true) rekeying) ALARM_LINE = 10 := by decide +kernel
theorem test_alarm : getF (ran .alarmClear (withRegs [(ALARM, 1), (ALARM_LINE, 7)])) ALARM = 0
    ∧ getF (ran .alarmClear (withRegs [(ALARM, 1), (ALARM_LINE, 7)])) ALARM_LINE = 0 := by decide +kernel

/-- Slot 3 of partition 15: no lines anywhere. -/
def copyPacket : Packet := packet ([15, 3, 3] ++ zeros 13)
def copyState : State := ringOn 16 (withRegs [(SEQ_STATE, 3)])
theorem witness_copies : Safety.Fetched copyState 16 0x0B08 copyPacket 16 .plain ∧ Safety.Fetched copyState 16 0x0B09 copyPacket 16 .plain
    ∧ fieldAt copyPacket.params 0 1 = (16 : BitVec 5).toNat - 1 ∧ Safety.RoomFor copyState (ringRequest 16 0x0B09 copyPacket) := by
  decide +kernel
def importing (done : List Nat) : State :=
  let s := setSnap copyState 15 3 { SnapSlot.empty with areas := [(0, 1), (0, 1), (0, 1), (0, 1)], imported := done }
  { s with sec := { s.sec with imports := [(4, 15, 3, 3, 0)], exports := [(5, 15, 3, 3, 0)] } }
theorem witness_importing : partLines (importing []) 15 3 3 = 1 ∧ (snapAt (importing [0, 1, 2]) 15 3).imported = [0, 1, 2] := by decide +kernel
/-- The descriptor's line of an import, with its tag under the snapshot keys of number 3. -/
def goodLine : List Byte := List.replicate 64 0 ++ lineTag 3 15 0 0 (List.replicate 64 0)
def importedState : State :=
  let s := importing [0, 1, 2]
  { s with sec := { s.sec with snapKey := [(15, 3)], copies := [(copyKey 15 3 0, goodLine)] } }
theorem goodLine_whole : goodLine.length = 72 := by simp [goodLine, lineTag]
theorem witness_descriptor : rawGood importedState 15 0 (partFirst importedState 15 3 0) (copyLine goodLine 0) = true := by
  have first : partFirst importedState 15 3 0 = 0 := by decide +kernel
  have key : keyOfLine importedState 15 0 0 = 3 := by decide +kernel
  have whole : copyLine goodLine 0 = goodLine := by
    simp only [copyLine, Nat.mul_zero, List.drop_zero]
    exact List.take_of_length_le (Nat.le_of_eq goodLine_whole)
  rw [first, whole]
  simp only [rawGood, key]
  rw [goodLine, List.drop_left' (by simp), List.take_left' (by simp)]
  simp
/-- With no snapshot key no line of a copy verifies. -/
theorem witness_no_descriptor : rawGood (importing [0, 1, 2]) 15 0 (partFirst (importing [0, 1, 2]) 15 3 0) (List.replicate 72 0) = false := by
  decide +kernel
theorem test_importing : (snapAt (ran (.snapImportComplete (List.replicate 72 0) false) (importing [0])) 15 3).writing = true
    ∧ (snapAt (ran (.snapImportComplete (List.replicate 72 0) true) (importing [0, 1, 2])) 15 3).invalid = true
    ∧ getF (ran (.snapImportComplete (List.replicate 72 0) true) (importing [0, 1, 2])) ALARM_CLASS = 3 := by decide +kernel
-- FIPS 180-4's example "abc" for SHA-384, FIPS 197's example of the S-box, and FIPS 186's generator of P-384
theorem test_sha : Crypto.sha384 [0x61, 0x62, 0x63] = Crypto.beBytes 48
    0xCB00753F45A35E8BB5A03D699AC65007272C32AB0EDED1631A8B605A43FF5BED8086072BA1E7CC2358BAECA134C825A7 := by decide +kernel
theorem test_curve : Crypto.sbox 0x53 = 0xED ∧ Crypto.invSbox 0xED = 0x53 ∧ Crypto.onCurve Crypto.p384g = true := by decide +kernel

/-! ## Identity, power, fences and tests -/

/-- The device is IDLE; ring 1 has a packet. -/
def idleState (fs : List (Field × Nat)) : State := ringOn 1 (withRegs ([(SEQ_STATE, 0)] ++ fs))
theorem witness_identity : Safety.Fetched (idleState []) 1 0x0101 (packet []) 0 .plain
    ∧ Safety.Fetched (idleState []) 1 0x0102 (packet ([3] ++ zeros 7)) 8 .plain ∧ Safety.Fetched (idleState []) 1 0x0103 (packet []) 0 .plain
    ∧ Safety.Fetched (idleState []) 1 0x0104 (packet (zeros 32)) 32 .plain ∧ (idleState []).nv.commit = none
    ∧ Safety.Fetched (idleState []) 1 0x0105 (packet (zeros 112)) 112 .plain := by decide +kernel
theorem witness_power : Safety.Fetched (idleState []) 1 0x0201 (packet ([1] ++ zeros 7)) 8 .plain
    ∧ Safety.Fetched (idleState []) 1 0x0201 (packet ([2] ++ zeros 7)) 8 .plain ∧ getF (idleState []) SEQ_STATE = 0
    ∧ Safety.Fetched (idleState []) 1 0x0204 (packet ([0xB0, 4] ++ zeros 6)) 8 .plain ∧ getF (idleState []) DEV_GRADE ≠ 2
    ∧ Safety.Fetched (idleState []) 1 0x0205 (packet []) 0 .plain := by decide +kernel
theorem test_identity : rdByte (ran (.echo 1 (packet [7, 9])) (idleState [])).host 17 = 9
    ∧ getF (ran (.powerSet 1 (packet ([1] ++ zeros 7))) (idleState [(FAULT_CODE, 5)])) PWR_STATE = 1
    ∧ wdogRuns (ran (.powerSet 1 (packet ([1] ++ zeros 7))) (idleState [])) = true
    ∧ getF (ran (.stepClockSet 1 (packet ([0xB0, 4] ++ zeros 6))) (idleState [])) STEP_MHZ_REQ = 1200 := by decide +kernel

theorem witness_tags : quarGen State.reset 16383 = none := by decide +kernel
def quarState : State := ran (.ringTimeout 1 16383 3 none) State.reset
theorem test_tags : getF quarState TAGS_QUAR = 1 ∧ getF quarState BAR0_ERR = 2
    ∧ getF (ran (.lateCompletion 16383 3) quarState) TAGS_QUAR = 0 ∧ getF (ran (.lateCompletion 16383 2) quarState) TAGS_QUAR = 1
    ∧ getF (ran (.quarantineExpiry 16383) quarState) TAGS_QUAR = 0 := by decide +kernel
/-- A packet whose SCOPE names tile 31 of die 3, or die 3. -/
def tilePacket (l : List Nat) : Packet := { packet l with scope := BitVec.ofNat 32 (0x400000 + 3 * 512 + 31 * 2048 + 2 * 2 ^ 20) }
def diePacket (l : List Nat) : Packet := { packet l with scope := BitVec.ofNat 32 (0x400000 + 3 * 512 + 2 ^ 20) }
def fenceParams : List Nat := [0x40, 0x42, 0x0F, 0] ++ zeros 4
theorem witness_fence : Safety.Fetched (idleState []) 1 0x0203 (tilePacket fenceParams) 8 .block ∧ scLevel (ringRequest 1 0x0203 (tilePacket fenceParams)) = 2
    ∧ fencing (idleState []) false 127 = false ∧ Safety.RoomFor (idleState []) (ringRequest 1 0x0203 (tilePacket fenceParams))
    ∧ fencing (ran (.fence 1 (tilePacket fenceParams)) (idleState [])) false 127 = true := by decide +kernel
theorem test_fence : getF (ran (.fenceAck false 127) (ran (.fence 1 (tilePacket fenceParams)) (idleState []))) (TILE_FENCED 127) = 1
    ∧ getF (ran (.fenceForced true 3 []) (ran (.fence 1 (diePacket fenceParams)) (idleState []))) (DIE_FENCED 3) = 1 := by decide +kernel
theorem witness_block_reset : Safety.Fetched (idleState []) 1 0x0202 (packet (zeros 8)) 8 .block ∧ scLevel (ringRequest 1 0x0202 (packet (zeros 8))) = 0
    ∧ Safety.Fetched (idleState []) 1 0x0202 (tilePacket (zeros 8)) 8 .block ∧ scopeLoaded (idleState []) false 127 = false := by decide +kernel
def resetting : State :=
  ran (.deviceReset 1 (tilePacket (zeros 8))) (idleState [(TILE_GATED 127, 0), (TILE_IN_RESET 127, 0), (TILE_FENCED 127, 1), (TILE_PARTITION 127, 15)])
theorem witness_resetting : tasksOn resetting.ring.resets false 127 ≠ [] ∧ flag resetting (TILE_GATED 127) = false := by decide +kernel
theorem test_resetting : getF resetting (TILE_IN_RESET 127) = 1 ∧ getF resetting (TILE_PARTITION 127) = 15
    ∧ getF (ran (.blockResetComplete false 127) resetting) (TILE_IN_RESET 127) = 0
    ∧ getF (ran (.blockResetComplete false 127) resetting) (TILE_FENCED 127) = 0 := by decide +kernel
def awakeState : State := idleState [(TILE_GATED 127, 0)]
theorem witness_mem_test : Safety.Fetched awakeState 1 0x0C01 (tilePacket ([1] ++ zeros 7)) 8 .block
    ∧ hasImage awakeState (getF awakeState (TILE_PARTITION 127)) = false ∧ flag (countFetch awakeState 1) (TILE_GATED 127) = false
    ∧ portClosed (countFetch awakeState 1) false 127 = false := by decide +kernel
/-- The port of a tile closes as soon as a fence of it begins (R483). -/
theorem test_port_closes : portClosed (ran (.fence 1 (tilePacket fenceParams)) awakeState) false 127 = true
    ∧ fencedAt (ran (.fence 1 (tilePacket fenceParams)) awakeState) (tileBase 127 + 4) = true := by decide +kernel
def testing : State :=
  let s := ran (.memTest 1 (tilePacket ([1] ++ zeros 7))) awakeState
  { s with eng := { s.eng with mem := [(127 * 3145728 + 5, 9)] } }
theorem witness_testing : (testing.ring.tests.find? (fun y => y.2.1 == 127)).isSome = true := by decide +kernel
theorem test_testing : (ran (.memTestComplete 127 0 0) testing).eng.mem = [] := by decide +kernel
def injectPacket (t : Nat) (l : List Nat) : Packet := packet ([t, 0, 0, 0] ++ zeros 4 ++ l)
theorem witness_inject : eiOk (countFetch (agentState 1) 1) (ringRequest 1 0x0C02 (injectPacket 1 (zeros 8))) = true
    ∧ Safety.Fetched (agentState 1) 1 0x0C02 (injectPacket 1 (zeros 8)) 16 .target
    ∧ eiOk (countFetch (agentState 1) 1) (ringRequest 1 0x0C02 (injectPacket 3 ([9] ++ zeros 4 ++ [31, 0, 0]))) = true
    ∧ findLc (countFetch (agentState 1) 1) 0 0 = some 0 ∧ portClosed (countFetch (agentState 1) 1) false 0 = false := by decide +kernel
theorem test_inject : (ran (.errInject 1 (injectPacket 1 (zeros 8))) (agentState 1)).eng.imemErr = [(0, 2)]
    ∧ (ran (.errInject 1 (injectPacket 2 ([9] ++ zeros 4 ++ [31, 0, 0]))) (agentState 1)).eng.memErr = [(36, 1)] := by decide +kernel

/-! ## Mule pairs, console, run commands -/

def pairState (fs : List (Field × Nat)) : State := withRegs ([(SEQ_STATE, 1)] ++ fs)
theorem witness_miscompare : muleUp State.reset = true ∧ getF State.reset (pairField (!flag State.reset ACTIVE_PAIR)) = 0
    ∧ muleUp (pairState [(PAIR_B, 3)]) = true := by decide +kernel
def switching : State := ran (.miscompare [(5, 1), (16383, 3)]) State.reset
theorem witness_switching : flag switching SWITCHING = true ∧ testedPair switching = some false ∧ switching.pw.boot = .up := by decide +kernel
theorem test_switching : getF switching TAGS_QUAR = 2 ∧ getF (ran (.muleSwitchoverComplete 30) switching) ACTIVE_PAIR = 1
    ∧ getF (ran (.muleSwitchoverComplete 30) switching) LAST_SWITCH_US = 30
    ∧ getF (ran (.muleSelftestComplete false) switching) PAIR_A = 3
    ∧ getF (ran (.miscompare []) (pairState [(PAIR_B, 3)])) SWITCHING = 0 := by decide +kernel
def uartState (n : Nat) : State := { State.reset with ring := { State.reset.ring with uart := List.replicate n 65 } }
theorem witness_uart : uartUp (uartState 64) = true ∧ ((uartState 64).ring.uart.drop (1 : BitVec 7).toNat).length < 64
    ∧ 64 ≤ ((uartState 64).ring.uart.drop (0 : BitVec 7).toNat).length := by decide +kernel
theorem test_uart : (ran (.uartCharacter 66 true 1) (uartState 64)).ring.uart.getLast? = some 66
    ∧ getF (ran (.uartCharacter 66 true 0) (uartState 64)) UART_OVERRUN = 1
    ∧ getF (ran (.uartCharacter 66 false 0) (uartState 64)) FRAME_ERR = 1 ∧ getF (ran .uartBreak (uartState 0)) UART_BREAKS = 1 := by
  decide +kernel

def runRing (fs : List (Field × Nat)) : State := ringOn 1 (withRegs ([(SEQ_STATE, 1)] ++ fs))
theorem witness_run_command : Safety.Fetched (runRing []) 1 0x0401 (packet ([3] ++ zeros 7)) 8 .plain ∧ getF (runRing []) CYCLE_NUM < 2 ^ 48 - 1
    ∧ haltBlocks (runRing []) = false ∧ trunkMissing (runRing []) = false
    ∧ trunkMissing (runRing [(DR_VALID 511, 1), (DR_TRUNK 511, 95)]) = true := by decide +kernel
theorem witness_stop_command : Safety.Fetched (runRing [(SEQ_STATE, 2)]) 1 0x0402 (packet []) 0 .plain
    ∧ Safety.RoomFor (runRing [(SEQ_STATE, 2)]) (ringRequest 1 0x0402 (packet [])) ∧ Safety.Fetched (runRing []) 1 0x0402 (packet []) 0 .plain
    ∧ Safety.Fetched (runRing []) 1 0x0403 (packet []) 0 .plain := by decide +kernel
def seqSetPacket (m : Nat) : Packet := packet ([m, 255, 0, 0, 5, 0, 0, 0] ++ [1] ++ zeros 7 ++ [2, 0, 0, 0, 9, 0, 0, 0, 7, 0] ++ zeros 6)
theorem witness_seq_set : Safety.Fetched (runRing []) 1 0x0404 (seqSetPacket 255) 32 .plain
    ∧ Safety.Fetched (runRing []) 1 0x0404 (seqSetPacket 1) 32 .plain ∧ fieldAt (seqSetPacket 1).params 16 4 < 1000000000
    ∧ fieldAt (seqSetPacket 1).params 26 6 = 0 := by decide +kernel
theorem test_run_command : getF (ran (.run 1 (packet ([3] ++ zeros 7))) (runRing [])) RUN_COUNT = 3
    ∧ getF (ran (.run 1 (packet ([3] ++ zeros 7))) (runRing [])) SEQ_STATE = 2
    ∧ statusIn (ran (.run 1 (packet ([3] ++ zeros 7))) (runRing [(DR_VALID 511, 1), (DR_TRUNK 511, 95)])) = 0x60
    ∧ (ran (.stop 1 (packet [])) (runRing [(SEQ_STATE, 2)])).cyc.stopReq = true
    ∧ getF (ran (.seqSet 1 (seqSetPacket 1)) (runRing [])) NOPROGRESS_LIMIT = 1024
    ∧ getF (ran (.seqSet 1 (seqSetPacket 1)) (runRing [])) SEQ_MODE = 1
    ∧ getF (ran (.seqSet 1 (seqSetPacket 255)) (runRing [])) SEQ_MODE = 0 := by decide +kernel

/-! ## Resets, rails, watchdog and clocks -/

def bootState (b : Boot) (fs : List (Field × Nat)) : State :=
  let s := withRegs fs
  { s with pw := { s.pw with boot := b } }
theorem witness_reset_n : (90000 : BitVec 32).toNat * 10 < 9 * filterNs (bootState .up [(STRAP_FILTER, 3)]) ∨ (8 : BitVec 32).toNat * 10 < 9 * filterNs State.reset := by
  decide +kernel
theorem witness_reset_n_long : 11 * filterNs State.reset < (1101 : BitVec 32).toNat * 10 ∧ State.reset.pw.boot = .up
    ∧ 11 * filterNs (bootState .optionLoad []) < (1101 : BitVec 32).toNat * 10 ∧ flag (bootState .optionLoad []) STRAP_RESTART = false := by
  decide +kernel
theorem test_reset_n : getF (ran (.resetN 1101) (bootState .up [(FAULT_CODE, 7), (SEQ_STATE, 2)])) RST_PIN = 1
    ∧ getF (ran (.resetN 1101) (bootState .up [(FAULT_CODE, 7), (SEQ_STATE, 2)])) FAULT_CODE = 7
    ∧ getF (ran (.resetN 1101) (bootState .up [(FAULT_CODE, 7), (SEQ_STATE, 2)])) SEQ_STATE = 0
    ∧ (ran (.resetN 1101) (bootState .optionLoad [])).pw.deferred = 2 := by decide +kernel
def dueState : State := { State.reset with pw := { State.reset.pw with resetDue := true } }
theorem test_due : getF (ran .deviceResetBegin dueState) RST_CMD = 1 ∧ (ran .deviceResetBegin dueState).pw.boot = .reset := by decide +kernel
def heldReset (fs : List (Field × Nat)) : State :=
  let s := bootState .reset fs
  { s with pw := { s.pw with railHeld := true } }
theorem witness_release_reset : railsIdle (heldReset []) = true ∧ railsIdle (heldReset [(RAIL_PGOOD, 0x3FDFFF)]) = false := by decide +kernel
theorem test_release_reset : (ran .resetRelease (heldReset [])).pw.boot = .steps
    ∧ (ran .resetRelease (heldReset [(RAIL_PGOOD, 0x3FDFFF)])).pw.boot = .reset := by decide +kernel
theorem witness_rails : 2 ≤ getF State.reset PWR_STATE ∧ (bootState .off [(RAIL_PGOOD, 0)]).pw.boot = .off := by decide +kernel
theorem test_rails : getF (ran (.railGood 21 3) (withRegs [(RAIL_PGOOD, 0)])) RAIL_PGOOD = 2 ^ 21
    ∧ getF (ran (.railGood 13 0) (withRegs [(RAIL_PGOOD, 0)])) RAIL_PGOOD = 2 ^ 13
    ∧ (ran (.railGood 22 0) (bootState .off [(RAIL_PGOOD, 0)])).pw.boot = .hold ∧ getF (ran (.railLoss 13) State.reset) RST_RAIL = 1
    ∧ getF (ran (.railLoss 13) State.reset) RAIL_LOST = 2 ^ 13 ∧ getF (ran (.railLoss 14) State.reset) (BANK_PGOOD 0) = 0
    ∧ (ran (.railLoss 22) State.reset).pw.boot = .off := by decide +kernel
theorem test_straps : getF (ran (.strapLatch 5) (bootState .hold [])) STRAP_FILTER = 1
    ∧ getF (ran (.strapLatch 5) (bootState .hold [])) STRAP_RESTART = 1 := by decide +kernel
def deferredState : State :=
  let s := bootState .optionLoad []
  { s with pw := { s.pw with deferred := 2 } }
theorem witness_boot : railGood (bootState .steps []) 8 = true ∧ hubClock (bootState .steps []) = true
    ∧ (bootState .optionLoad []).pw.deferred = 0 ∧ deferredState.pw.deferred = 2 ∧ railsIdle (bootState .started []) = true
    ∧ railsIdle (bootState .copied [(BOOT_STATE, 1)]) = true ∧ flag (bootState .copied [(BOOT_STATE, 1)]) BOOT_STATE = true
    ∧ flag (bootState .copied [(BOOT_STATE, 0)]) BOOT_STATE = false := by decide +kernel
/-- A default personality of one FABRIC frame of 8 bytes, whose authentication block is at 24. -/
def onePersonality : State :=
  { State.reset with nv := { State.reset.nv with personality := wrList [] 0 ([4, 0, 0, 0, 8] ++ List.replicate 11 0 ++ [7] ++ List.replicate 7 0 ++ [0x41, 0x55, 0x54, 0x48]) } }
theorem test_personality : (personalityFrames (rdByte onePersonality.nv.personality) 3 0).map (fun x => (x.1.length, x.2)) = some (1, 24)
    ∧ (personalityItems onePersonality []).isNone ∧ (personalityItems State.reset []).isNone := by decide +kernel
theorem test_boot : (ran (.bootCopy 0 true true []) (bootState .steps [])).pw.boot = .optionLoad
    ∧ getF (ran (.bootCopy 1 true true []) deferredState) RST_PIN = 1
    ∧ getF (ran (.bootCopy 2 true true []) (bootState .started [])) TAF_DEFAULT_FAIL = 1
    ∧ getF (ran .bringUpComplete (bootState .copied [(BOOT_STATE, 1)])) PWR_STATE = 2
    ∧ (ran .bringUpComplete (bootState .copied [(BOOT_STATE, 0)])).pw.boot = .standby := by decide +kernel

def warned : State := { State.reset with pw := { State.reset.pw with wdogWarned := true } }
def expired : State := ran .watchdog warned
theorem witness_wdog : wdogRuns State.reset = true ∧ muleUp State.reset = true ∧ State.reset.pw.wdogWarned = false ∧ wdogRuns warned = true
    ∧ getF warned FAULT_CODE = 0 ∧ expired.pw.wdogExpired = true ∧ expired.pw.boot = .up := by decide +kernel
theorem test_wdog : getF (ran .wdogWarn State.reset) (evPend 3364) = 1 ∧ (ran .wdogKick warned).pw.wdogWarned = false
    ∧ getF expired FAULT_CODE = 0x0603 ∧ getF expired SEQ_STATE = 3 ∧ getF (ran .watchdogReset expired) RST_WDOG = 1 := by decide +kernel
theorem witness_heat : hottest [1150, 0, 0, 0, 0] = 1150 ∧ hottest [0, 0, 0, 0, 950] = 950 ∧ getF State.reset T_THROT = 95
    ∧ flag State.reset THROTTLING = false ∧ hottest [0, 0, 0xFFFF, 0, 949] = 949 := by decide +kernel
def throttling : State := ran (.thermalSample 0 0 0 0 950) State.reset
theorem test_heat : (ran (.thermalSample 1150 0 0 0 0) State.reset).pw.boot = .tripped ∧ getF throttling LIMIT_MHZ = 950
    ∧ getF throttling (TJ 4) = 950 ∧ getF (ran (.thermalSample 0 0 0xFFFF 0 949) State.reset) THROTTLING = 0 := by decide +kernel
def coolState (limit : Nat) : State :=
  let s := withRegs [(THROTTLING, 1), (LIMIT_MHZ, limit)]
  { s with pw := { s.pw with cool := true, hot := true } }
theorem witness_throttle : flag (coolState 260) THROTTLING = true ∧ getF (coolState 260) LIMIT_MHZ + 50 < getF (coolState 260) STEP_MHZ_REQ
    ∧ getF (coolState 960) STEP_MHZ_REQ ≤ getF (coolState 960) LIMIT_MHZ + 50 := by decide +kernel
theorem test_throttle : getF (ran .throttleStepDown (coolState 260)) LIMIT_MHZ = 250 ∧ getF (ran .throttleStepUp (coolState 260)) LIMIT_MHZ = 310
    ∧ getF (ran .throttleStepUp (coolState 960)) LIMIT_MHZ = 1200 ∧ getF (ran .throttleStepUp (coolState 960)) THROTTLING = 0 := by decide +kernel
theorem test_perst : getF (ran .perstN (ringOn 16 State.reset)) (CR_ENABLE 16) = 0 ∧ hostUp (ran .perstN State.reset) = false
    ∧ hostUp (ran .perstNRelease (ran .perstN State.reset)) = true := by decide +kernel
theorem witness_refclk : mget State.reset.pw.noClock false 0 = false := by decide +kernel
theorem test_refclk : stepClock (ran (.refclkLoss 0) State.reset) = false ∧ ran (.refclkReturn 0) (ran (.refclkLoss 0) State.reset) = State.reset := by
  decide +kernel
def avsState : State := withRegs [(AVS_BUSY 3, 1), (AVS_BUSY 0, 1)]
theorem witness_avs : flag avsState (AVS_BUSY 3) = true ∧ flag avsState (AVS_BUSY 0) = true := by decide +kernel
theorem test_avs : getF (ran (.avsTimeout 3) avsState) AVS_ERR = 1 ∧ getF (ran (.avsTimeout 3) avsState) (AVS_BUSY 0) = 1 := by decide +kernel
theorem test_jtag : (ran (.jtagInstruction 0x20) State.reset).pw.jtag = 0x20 ∧ railGood State.reset 13 = true
    ∧ (ran (.jtagInstruction 0x20) (withRegs [(RAIL_PGOOD, 0x1FFF)])).pw.jtag = 0x01 := by decide +kernel

/-- IDCODE of A1 (R527), and the alarm pin (R434). -/
theorem test_pins : idcode State.reset = 0x1539656B ∧ secAlarmLow (withRegs [(ALARM, 1), (PIN_EN, 1)]) = true
    ∧ secAlarmLow (withRegs [(ALARM, 1)]) = false := by decide +kernel

/-! ## Scratchpad -/

/-- Bank 63 belongs to the host, bank 62 to nobody. -/
def spState (fs : List (Field × Nat)) : State := withRegs ([(SP_BANK_OWNER 63, 1), (SP_BANK_OWNER 62, 3)] ++ fs)
def spAt (who bank : Nat) (v : Option (BitVec 64)) : SpAccess := ⟨BitVec.ofNat 2 who, BitVec.ofNat 6 bank, 0x3FFF8, true, v⟩
theorem witness_sp_owner : spReaches (spState []) 1 = true ∧ getF (spState []) (SP_BANK_OWNER 63) = spRole 1
    ∧ getF (spState []) (SP_BANK_OWNER 62) = 3 ∧ getF (spState []) (SP_BANK_OWNER 0) ≠ spRole 1 ∧ getF (spState []) (SP_BANK_OWNER 0) ≠ 3
    ∧ flag (spState []) SPV_VALID = false := by decide +kernel
theorem test_sp_owner : getF (ran (.spOwner 63 1 0) (spState [])) (SP_BANK_OWNER 63) = 0 ∧ getF (ran (.spOwner 63 1 0) (spState [])) (SP_PENDING 63) = 1
    ∧ getF (ran (.spOwner 0 1 1) (spState [])) (SP_BANK_OWNER 0) = 0 ∧ getF (ran (.spOwner 0 1 1) (spState [])) SP_VIOLATION = 1
    ∧ getF (ran (.spOwner 0 1 1) (spState [])) SPV_REQ = 1 := by decide +kernel
/-- The host's write waits while bank 63 is handed over to it. -/
def spWaiting : State := ran (.scratchpadAccess (spAt 1 63 (some 0x5A)) .none false) (spState [(SP_PENDING 63, 1)])
theorem witness_sp_handover : flag spWaiting (SP_PENDING 63) = true ∧ spWaiting.ring.spWait = [(.plain, spAt 1 63 (some 0x5A))] := by decide +kernel
theorem test_sp_handover : rdByte (ran (.ownerHandover 63) spWaiting).sp 0xFFFFF8 = 0x5A ∧ spWaiting.sp = [] := by decide +kernel
/-- The last word of bank 63 holds 0x0F. -/
def spFilled : State := { spState [(HOST_ALIAS_BANK, 63)] with sp := [(0xFFFFF8, 0x0F)] }
theorem witness_sp_access : getF spFilled (SP_BANK_OWNER 63) = spRole 1 ∧ flag spFilled (SP_PENDING 63) = false
    ∧ aliasBank spFilled (spAt 1 0 (some 0x35)) = spAt 1 63 (some 0x35) ∧ getF spFilled (SP_BANK_OWNER 0) ≠ spRole 1 := by decide +kernel
theorem test_sp_access : (ran (.scratchpadAccess (spAt 1 63 none) .none false) spFilled).readData = 0x0F
    ∧ (ran (.setAliasWrite (spAt 1 0 (some 0x35))) spFilled).sp = [(0xFFFFF8, 0x3F)]
    ∧ (ran (.clearAliasWrite (spAt 1 0 (some 0x35))) spFilled).sp = [(0xFFFFF8, 0x0A)] := by decide +kernel

/-! ## Transports -/

/-- Ring 16 is enabled with 16 slots. -/
def sqState (fs : List (Field × Nat)) : State := withRegs ([(SEQ_STATE, 1), (CR_ENABLE 16, 1)] ++ fs)
theorem witness_sq_prod : hostUp (sqState []) = true ∧ flag (sqState []) (CR_ENABLE 16) = true
    ∧ (16 + 2 ^ 32 - getF (sqState []) (CR_SQ_FETCHED 16)) % 2 ^ 32 ≤ sqSlots (sqState []) 16
    ∧ sqSlots (sqState []) 16 < (17 + 2 ^ 32 - getF (sqState []) (CR_SQ_FETCHED 16)) % 2 ^ 32 ∧ cmdOf 0xFFFF = none
    ∧ canFetch (setF (sqState []) (CR_SQ_PROD 16) 16) 16 1 = true ∧ flag State.reset (CR_ENABLE 16) = false := by decide +kernel
theorem test_sq_prod : getF (ran (.sqProd 16 16 []) (sqState [])) (CR_SQ_PROD 16) = 16 ∧ getF (ran (.sqProd 16 17 []) (sqState [])) (CR_DB_ERR 16) = 1
    ∧ statusIn (ran (.sqProd 16 16 [(0xFFFF, packet [])]) (sqState [])) = 0x10
    ∧ getF (ran (.sqProd 16 16 [(0xFFFF, packet [])]) (sqState [])) (CR_REJECTS 16) = 1 := by decide +kernel
/-- The CQ of ring 16 is full, and one reply is held. -/
def cqState : State := setHeld (sqState [(CR_CQ_PROD 16, 16), (CR_WB_ADDR 16, 1024)]) 16 [([0xAA, 0xBB], false)]
theorem witness_cq_cons : hostUp cqState = true ∧ (1 + 2 ^ 32 - getF cqState (CR_CQ_CONS 16)) % 2 ^ 32
      ≤ (getF cqState (CR_CQ_PROD 16) + 2 ^ 32 - getF cqState (CR_CQ_CONS 16)) % 2 ^ 32
    ∧ heldOf cqState 16 = [([0xAA, 0xBB], false)] ∧ (getF cqState (CR_CQ_PROD 16) + 2 ^ 32 - 1) % 2 ^ 32 < cqSlots cqState 16
    ∧ (getF cqState (CR_CQ_PROD 16) + 2 ^ 32 - getF cqState (CR_CQ_CONS 16)) % 2 ^ 32 < (17 + 2 ^ 32 - getF cqState (CR_CQ_CONS 16)) % 2 ^ 32
    ∧ heldOf (sqState []) 16 = [] := by decide +kernel
theorem test_cq_cons : rdBytes (ran (.cqCons 16 1) cqState).host 0 2 = 0xBBAA ∧ getF (ran (.cqCons 16 1) cqState) (CR_CQ_PROD 16) = 17
    ∧ getF (ran (.cqCons 16 17) cqState) (CR_DB_ERR 16) = 1 := by decide +kernel
theorem test_cr_en : heldOf (ran (.crEn 16 true) (ran (.crEn 16 false) cqState)) 16 = []
    ∧ getF (ran (.crEn 16 true) (ran (.crEn 16 false) cqState)) (CR_CQ_PROD 16) = 0 := by decide +kernel

/-- A packet is being assembled on SMBus, or replies wait. -/
def smbusState (got : Option (List Byte)) (replies : List (List Byte)) : State :=
  { State.reset with ctl := { State.reset.ctl with smbusIn := got, smbusOut := replies } }
theorem witness_smbus : smbusUp (smbusState (some [0xFF, 0xFF]) []) = true ∧ (smbusState none (List.replicate 8 [])).ctl.smbusOut.length = 8
    ∧ smbusUp (smbusState none (List.replicate 8 [])) = true ∧ (0x80 : Byte).getLsbD 7 = true ∧ (0x80 : Byte).getLsbD 6 = false := by
  decide +kernel
theorem test_block_write : (ran (.blockWrite [0x80, 1, 2] true) (smbusState none [])).ctl.smbusIn = some [1, 2]
    ∧ (ran (.blockWrite [0x40, 0, 1, 5, 0] true) (smbusState (some [0xFF, 0xFF]) [])).ctl.smbusOut.map List.length = [16]
    ∧ (ran (.blockWrite [0x40, 0, 1, 5, 0] true) (smbusState (some [0xFF, 0xFF]) [])).ctl.smbusIn = none := by decide +kernel
/-- The standby responder serves the identity group (ID_GET) before the hub rails are good, and nothing before step 2 (R9, R515). -/
theorem test_standby_responder :
    (ran (.blockWrite ([0x40] ++ leBytes 12 0) true) (setPw (smbusState (some [1, 1, 0, 1]) []) (fun w => { w with boot := .steps }))).ctl.smbusOut.map
      (fun b => (b.drop 8).take 2) = [[0, 0]]
    ∧ smbusUp (setPw State.reset (fun w => { w with boot := .hold })) = false := by decide +kernel
theorem test_block_read : (ran .blockRead (smbusState none [])).readData = 32
    ∧ (ran .blockRead (smbusState none [[7, 8]])).readData = 0xC0 + 256 * 7 + 65536 * 8 := by decide +kernel

/-- The command port: an address and a key are set, and COUNTER 5 was accepted last. -/
def ethState (stored : List (Nat × List Byte × List Byte)) : State :=
  { State.reset with nv := { State.reset.nv with mgmtKey := List.replicate 32 1, inForce := [(0x014, 9)] },
                     ctl := { State.reset.ctl with eth := { State.reset.ctl.eth with counter := some 5, stored := stored } } }
theorem witness_datagram : commandPort (ethState []) = true ∧ cmdOf (packetOf .ethernet [0xFF, 0xFF]).opcode = none
    ∧ (ethState []).ctl.eth.counter = some 5 := by decide +kernel
/-- The MAC of a datagram has 16 bytes. -/
theorem witness_mac (b : List Byte) : (ethMac (ethState []) b).length = 16 := by simp [ethMac]
/-- A datagram that is stored, under its own MAC. -/
def storedDatagram : List Byte := [1, 2] ++ leBytes 8 5 ++ ethMac (ethState []) (leBytes 8 5 ++ [1, 2])
theorem witness_repeat : (ethState [(5, storedDatagram, [9])]).ctl.eth.stored.find? (fun e => e.2.1 == storedDatagram) = some (5, storedDatagram, [9]) := by
  simp [ethState]
theorem test_short_datagram : (ran (.commandDatagram [1, 2]) (ethState [])).ctl.eth.authFail = 1 := by decide +kernel

/-! ## State addresses -/

/-- LDS in a folded tile, at SADDR 0x7FFF and 0x8000 (R62). -/
def foldedLds (addr : Nat) : State :=
  let s := wordState (BitVec.ofNat 80 (0x02 * 2 ^ 75 + 7 * 2 ^ 61 + addr * 2 ^ 45)) []
  { s with eng := { s.eng with fold := [(0, true)], cur := [(0x7FFF, true)] } }
theorem witness_state_range : stepClock (foldedLds 0x8000) = true
    ∧ admission (foldedLds 0x8000) site0 = .issue (issued (foldedLds 0x8000) site0) ∧ foldedAt (foldedLds 0x8000) 0 = true
    ∧ opcOf (wordAt (foldedLds 0x8000) 0 false 0 0) = 0x02 ∧ saddrOf (wordAt (foldedLds 0x8000) 0 false 0 0) = 0x8000
    ∧ dblErr (issued (foldedLds 0x8000) site0) 0 false 0 0 = false
    ∧ slotLimit (issued (foldedLds 0x8000) site0) 0 false (wordAt (foldedLds 0x8000) 0 false 0 0) = false
    ∧ getF (foldedLds 0x8000) FAULT_CODE = 0 ∧ flag (foldedLds 0x8000) IN_COMMIT = false := by decide +kernel
theorem test_state_range : getF (ran (.lds site0) (foldedLds 0x8000)) FAULT_CODE = 0x0105 ∧ slot7 (.lds site0) (foldedLds 0x7FFF) = true := by
  decide +kernel

/-! ## Replies -/

theorem witness_checks : (∀ (p : Packet) (u : State), exec (.echo 1 p) u = fromRing cmdEcho 1 p u)
    ∧ canFetch gopStart 1 (packet []).flags.toNat = true := ⟨fun _ _ => rfl, by decide +kernel⟩
theorem test_checks : statusIn (ran (.echo 1 { packet [] with version := 2 }) gopStart) = 0x10
    ∧ statusIn (ran (.echo 1 { packet [] with rsvd := 1 }) gopStart) = 0x11
    ∧ statusIn (ran (.echo 2 (packet (zeros 16))) (ringOn 2 (withRegs [(SEQ_STATE, 1)]))) = 0x12 := by decide +kernel
theorem witness_reply : flag cqState (CR_ENABLE 16) = true ∧ heldOf cqState 16 ≠ []
    ∧ flag (sqState [(CR_WB_ADDR 16, 1024)]) (CR_ENABLE 16) = true ∧ heldOf (sqState [(CR_WB_ADDR 16, 1024)]) 16 = []
    ∧ getF (sqState [(CR_WB_ADDR 16, 1024)]) (CR_WB_ADDR 16) * 8 = 8192
    ∧ (getF (sqState []) (CR_CQ_PROD 16) + 2 ^ 32 - getF (sqState []) (CR_CQ_CONS 16)) % 2 ^ 32 < cqSlots (sqState []) 16 := by decide +kernel

/-! ## Ill-formed commands -/

theorem test_wf_lane : Instr.wf (.replayTimeout 96) = false ∧ Instr.wf (.replayTimeout 95) = true := by decide
theorem test_wf_module : Instr.wf (.bridgeDown 96) = false ∧ Instr.wf (.bridgeDown 95) = true := by decide
theorem test_wf_ring : Instr.wf (.crEn 17 true) = false ∧ Instr.wf (.crEn 16 true) = true := by decide
theorem test_wf_function : Instr.wf (.flr 17) = false ∧ Instr.wf (.flr 16) = true := by decide
theorem test_wf_access_align : Instr.wf (.rcRead { fn := 0, off := 2, wide := false, uncorr := false }) = false
    ∧ Instr.wf (.rcRead { fn := 0, off := 4, wide := true, uncorr := false }) = false ∧ Instr.wf (.rcRead { fn := 0, off := 4, wide := false, uncorr := false }) = true := by decide
theorem test_wf_access_function : Instr.wf (.rcRead { fn := 17, off := 4, wide := false, uncorr := false }) = false := by decide
theorem test_wf_scratch : Instr.wf (.setAliasWrite ⟨1, 0, 4, true, none⟩) = false ∧ Instr.wf (.setAliasWrite ⟨1, 0, 4, false, none⟩) = true := by
  decide
theorem test_wf_flit : Instr.wf (.hello (rxOf 4 96 0x40)) = false ∧ Instr.wf (.hello (rxOf 4 95 0x40)) = true := by decide
theorem test_wf_type : Instr.wf (.hello (rxOf 4 95 0x41)) = false ∧ Instr.wf (.hello (rxOf 4 95 0x46)) = true ∧ Instr.wf (.exch (rxOf 2 95 0)) = false
    ∧ Instr.wf (.exch (rxOf 7 95 0)) = true ∧ Instr.wf (.fill (rxOf 6 95 0)) = false ∧ Instr.wf (.recoverReq (rxOf 4 95 2)) = false := by decide
theorem test_wf_fallback : Instr.wf (.fallbackDataRead 6) = false ∧ Instr.wf (.fallbackDataRead 5) = true := by decide
theorem test_wf_pin : Instr.wf (.targetPinInput 768 true) = false ∧ Instr.wf (.targetPinInput 767 true) = true := by decide
theorem test_wf_rail : Instr.wf (.railLoss 23) = false ∧ Instr.wf (.railLoss 22) = true := by decide
theorem test_wf_clock : Instr.wf (.refclkLoss 9) = false ∧ Instr.wf (.refclkReturn 8) = true := by decide
theorem test_wf_recv : Instr.wf (.valueRecord 0 448) = false := by decide
end Sys2Proof.Tests
end

section
/-!
PROOF. Model memory ports (R158, R159, R172, R175): what taking a request and the arrival of a result do, and that the stop which an
uncorrectable error brings about keeps its fault code, the model memories and the result buffers.
-/
namespace Sys2Proof.Machine
open Sys2Proof Reg

/-! ## What a stop by fault keeps -/

/-- The fault code, the model memories on die and in HBM, and the full entries of every result buffer are in `x` what they are in `s`. -/
structure FaultAndMemoryKept (s x : State) : Prop where
  code : getF x FAULT_CODE = getF s FAULT_CODE
  mem : x.eng.mem = s.eng.mem
  hbm : x.hbm = s.hbm
  results : ∀ t p, (mmpAt x t p).results = (mmpAt s t p).results

namespace FaultAndMemoryKept
variable {s x y : State}

theorem refl (s : State) : FaultAndMemoryKept s s := ⟨rfl, rfl, rfl, fun _ _ => rfl⟩

theorem trans (h : FaultAndMemoryKept s x) (k : FaultAndMemoryKept x y) : FaultAndMemoryKept s y :=
  ⟨k.code.trans h.code, k.mem.trans h.mem, k.hbm.trans h.hbm, fun t p => (k.results t p).trans (h.results t p)⟩

/-- What leaves the engine and HBM as they are keeps all of it with the fault code. -/
theorem of_eng (hcode : getF x FAULT_CODE = getF s FAULT_CODE) (heng : x.eng = s.eng) (hhbm : x.hbm = s.hbm) :
    FaultAndMemoryKept s x :=
  ⟨hcode, congrArg Engine.mem heng, hhbm, fun t p => by rw [mmpAt, mmpAt, heng]⟩

theorem of_regs (hregs : x.regs = s.regs) (heng : x.eng = s.eng) (hhbm : x.hbm = s.hbm) : FaultAndMemoryKept s x :=
  of_eng (by simp only [getF, hregs]) heng hhbm

end FaultAndMemoryKept

/-! ### Registers and events -/

/-- FAULT_CODE stands below every other register that a stop writes. -/
theorem setF_kept (s : State) {f : Field} (v : Nat) (h : FAULT_CODE.key < f.key) : FaultAndMemoryKept s (setF s f v) :=
  .of_eng (getF_setF_ne s v (Nat.ne_of_lt h)) rfl rfl

theorem setFs_kept (s : State) (l : List (Field × Nat)) (h : ∀ e ∈ l, FAULT_CODE.key < e.1.key) :
    FaultAndMemoryKept s (setFs s l) :=
  .of_eng (getF_setFs_ne l s fun e he => Nat.ne_of_lt (h e he)) (setFs_eng s l) (setFs_hbm s l)

theorem faultCode_lt_evPend (e : Nat) : FAULT_CODE.key < (evPend e).key := by simp only [FAULT_CODE, evPend, fld]; omega

theorem raiseEv_kept (s : State) (e : Nat) : FaultAndMemoryKept s (raiseEv s e) :=
  .of_eng (getF_raiseEv_ne s e (Nat.ne_of_lt (faultCode_lt_evPend e))) (raiseEv_eng s e) (raiseEv_hbm s e)

theorem mmpErr_kept (s : State) (t kind port : Nat) (a : MmpAccess) : FaultAndMemoryKept s (mmpErr s t kind port a) := by
  unfold mmpErr
  split
  · exact .refl s
  · refine .trans (setFs_kept s _ ?_) (raiseEv_kept _ _)
    simp only [List.forall_mem_cons, FAULT_CODE, ME_VALID, ME_KIND, ME_PORT, ME_SEQ, ME_WRITE, ME_ADDR, tileBase, fld]
    refine ⟨?_, ?_, ?_, ?_, ?_, ?_, nofun⟩ <;> omega

/-! ### Replies -/

theorem faultCode_lt_crBase (r o b : Nat) (w : Nat) (acc : Acc) (i : Nat) :
    FAULT_CODE.key < (fld (crBase r + o) b w acc i).key := by simp only [FAULT_CODE, fld, crBase]; omega

theorem writeReply_kept (s : State) (r : Nat) (b : List Byte) (e : Bool) : FaultAndMemoryKept s (writeReply s r b e) := by
  have hring : FaultAndMemoryKept s (writeReply s r b false) :=
    .trans (.trans (x := hostWriteList s r (getF s (CR_CQ_BASE r) * 4096 + getF s (CR_CQ_PROD r) % cqSlots s r * 128) b)
      (.of_regs rfl rfl rfl) (setF_kept _ _ (faultCode_lt_crBase _ _ _ _ _ _))) (.of_regs rfl rfl rfl)
  cases e with
  | false => exact hring
  | true => exact hring.trans (raiseEv_kept _ _)

theorem setHeld_kept (s : State) (r : Nat) (l : List (List Byte × Bool)) : FaultAndMemoryKept s (setHeld s r l) :=
  .trans (x := { s with ctl := { s.ctl with heldReplies := mset s.ctl.heldReplies [] r l } })
    (.of_regs rfl rfl rfl) (setF_kept _ _ (faultCode_lt_crBase _ _ _ _ _ _))

theorem ringReply_kept (s : State) (r : Nat) (b : List Byte) (e : Bool) : FaultAndMemoryKept s (ringReply s r b e) := by
  unfold ringReply
  split
  · exact .refl s
  · split
    · exact writeReply_kept s r b e
    · exact setHeld_kept s r _

theorem sendReply_kept (s : State) (via : Via) (op tag status : Nat) (l : List Byte) (e : Bool) :
    FaultAndMemoryKept s (sendReply s via op tag status l e) := by
  cases via with
  | ring r =>
    simp only [sendReply]
    split
    · exact .refl s
    · split
      · exact .trans (setF_kept s _ (faultCode_lt_crBase _ _ _ _ _ _)) (ringReply_kept _ r _ _)
      · exact ringReply_kept s r _ _
  | smbus => exact .of_regs rfl rfl rfl
  | ethernet => exact .of_regs rfl rfl rfl
  | gone => exact .refl s

theorem finalReply_kept (s : State) (id status : Nat) (l : List Byte) : FaultAndMemoryKept s (finalReply s id status l) := by
  unfold finalReply
  split
  · exact .refl s
  · next c _ =>
    exact .trans (x := { s with ctl := { s.ctl with calls := s.ctl.calls.erase c } }) (.of_regs rfl rfl rfl)
      (sendReply_kept _ _ _ _ _ _ _)

theorem finalReplies_kept (s : State) (status : Nat) (l : List Byte) (ids : List Nat) :
    FaultAndMemoryKept s (finalReplies s status l ids) := by
  induction ids generalizing s with
  | nil => exact .refl s
  | cons c r ih => exact (finalReply_kept s c status l).trans (ih _)

theorem answerPeekList_kept (s : State) (abandoned : Bool) (l : List Peek) :
    FaultAndMemoryKept s (answerPeekList s abandoned l) := by
  induction l generalizing s with
  | nil => exact .refl s
  | cons p r ih => exact (finalReply_kept s _ _ _).trans (ih _)

theorem answerPeeks_kept (s : State) (abandoned : Bool) : FaultAndMemoryKept s (answerPeeks s abandoned) :=
  .trans (x := { s with ctl := { s.ctl with peeks := [] } }) (.of_regs rfl rfl rfl) (answerPeekList_kept _ _ _)

/-! ### System messages -/

theorem formPacket_kept (s : State) (src type : Nat) (l : List Byte) : FaultAndMemoryKept s (formPacket s src type l) := by
  unfold formPacket
  split
  · exact .refl s
  · dsimp only
    split
    · exact .of_regs rfl rfl rfl
    · exact .trans
        (x := { s with trc := { s.trc with lost := mset s.trc.lost 0 src (lostOf s src + packetLen (type, l)) } })
        (.of_regs rfl rfl rfl) (setF_kept _ _ (by simp only [FAULT_CODE, TRC_LOST, trcBase, fld]; omega))

theorem setLane_kept (s : State) (n : Nat) (l : Lane) : FaultAndMemoryKept s (setLane s n l) := .of_regs rfl rfl rfl

theorem setTrunk_kept (s : State) (t : Nat) (x : Trunk) : FaultAndMemoryKept s (setTrunk s t x) := .of_regs rfl rfl rfl

theorem emit_kept (s : State) (n : Nat) (seq : Byte) (f : Flit) : FaultAndMemoryKept s (emit s n seq f) :=
  .of_regs rfl rfl rfl

theorem pumpOne_kept (s : State) (t : Nat) : FaultAndMemoryKept s (pumpOne s t) := by
  unfold pumpOne
  dsimp only
  split
  · split
    · exact ((setLane_kept s _ _).trans (emit_kept _ _ _ _)).trans (setTrunk_kept _ _ _)
    · exact .refl s
  · exact .refl s

theorem pump_kept (s : State) (t n : Nat) : FaultAndMemoryKept s (pump s t n) := by
  induction n generalizing s with
  | zero => exact .refl s
  | succ n ih =>
    simp only [pump]
    split
    · exact (pumpOne_kept s t).trans (ih _)
    · exact pumpOne_kept s t

theorem sendFlit_kept (s : State) (t : Nat) (type : Byte) (payload : BitVec 224) :
    FaultAndMemoryKept s (sendFlit s t type payload) := by
  have hqueued : ∀ u : State, FaultAndMemoryKept u
      (pumpAll (setTrunk u t { trunkAt u t with queue := (trunkAt u t).queue ++ [⟨type, payload⟩] }) t) := fun u =>
    (setTrunk_kept u t _).trans (pump_kept _ _ _)
  unfold sendFlit
  dsimp only
  split
  · exact (formPacket_kept s _ _ _).trans (hqueued _)
  · exact hqueued s

theorem sendOnTrunks_kept (s : State) (type : Byte) (payload : BitVec 224) (l : List Nat) :
    FaultAndMemoryKept s (sendOnTrunks s type payload l) := by
  induction l generalizing s with
  | nil => exact .refl s
  | cons t r ih => exact (sendFlit_kept s t type payload).trans (ih _)

theorem originate_kept (s : State) (csub body : Nat) : FaultAndMemoryKept s (originate s csub body) := by
  unfold originate
  refine .trans ?_ (sendOnTrunks_kept _ _ _ _)
  exact .of_regs rfl rfl rfl

/-! ### The stop -/

theorem setPower_kept (s : State) (v : Nat) : FaultAndMemoryKept s (setPower s v) := by
  unfold setPower
  split
  · exact .refl s
  · exact .trans (setF_kept s _ (by decide)) (raiseEv_kept _ _)

theorem setRunState_kept (s : State) (st : Nat) : FaultAndMemoryKept s (setRunState s st) := by
  have hstate : FaultAndMemoryKept s (setF s SEQ_STATE st) := setF_kept s _ (by decide)
  have hpower : ∀ u : State, FaultAndMemoryKept u (helloAll (if getF u PWR_STATE < 2 then u else setPower u (powerOf st))) := by
    intro u
    split
    · exact sendOnTrunks_kept _ _ _ _
    · exact (setPower_kept u _).trans (sendOnTrunks_kept _ _ _ _)
  unfold setRunState
  dsimp only
  split
  · exact .refl s
  · refine .trans ?_ (hpower _)
    split
    · exact hstate.trans (setF_kept _ _ (by decide))
    · exact hstate

/-- A port after the reads in flight have been given up: the same port, but for its reads in flight. -/
theorem mget_killReads (l : Map MmpPort) (k : Nat) :
    mget (killReads l) .empty k
      = { mget l .empty k with flying := (mget l .empty k).flying.map (fun a => { a with dead := true }) } := by
  induction l with
  | nil => rfl
  | cons e r ih =>
    obtain ⟨j, m⟩ := e
    simp only [killReads, List.map_cons, mget_cons] at ih ⊢
    split
    · rfl
    · exact ih

/-- Reads in flight are given up at a stop; what the result buffers hold stays (R82, R169). -/
theorem abandonCycle_kept (s : State) : FaultAndMemoryKept s (abandonCycle s) := by
  have hreads : FaultAndMemoryKept s
      { s with cyc := { s.cyc with faulted := true }, eng := { s.eng with mmp := killReads s.eng.mmp } } :=
    ⟨rfl, rfl, rfl, fun t p => by simp only [mmpAt, mget_killReads]⟩
  exact (hreads.trans (setF_kept _ _ (by decide))).trans (answerPeeks_kept _ _)

theorem faultStop_kept (s : State) : FaultAndMemoryKept s (faultStop s) := by
  unfold faultStop
  split
  · exact .refl s
  · have hopen : FaultAndMemoryKept s (openLate (abandonCycle s) (flag s IN_CYCLE)) :=
      (abandonCycle_kept s).trans (.of_regs rfl rfl rfl)
    have hcause := hopen.trans (setF_kept _ 8 (f := STOP_CAUSE) (by decide))
    have hstate := hcause.trans (setRunState_kept _ stFaulted)
    exact (hstate.trans (finalReplies_kept _ _ _ _)).trans (originate_kept _ _ _)

theorem actOnFault_kept (s : State) : FaultAndMemoryKept s (actOnFault s) := by
  unfold actOnFault
  split
  · exact .of_regs rfl rfl rfl
  · exact faultStop_kept s

theorem stopCluster_kept (s : State) (pc : Nat) : FaultAndMemoryKept s (stopCluster s pc) := by
  unfold stopCluster
  split
  · exact .refl s
  · exact .of_regs rfl rfl rfl

/-- A fault fills the empty record with its code, and changes no model memory or result buffer (R83, R198). -/
theorem recordFault_of_empty (s : State) (code loc : Nat) (h : getF s FAULT_CODE = 0) :
    getF (recordFault s code loc) FAULT_CODE = code % 2 ^ 16
      ∧ (recordFault s code loc).eng = s.eng ∧ (recordFault s code loc).hbm = s.hbm := by
  have hfills : fillsRecord s code = true := by simp [fillsRecord, faultFree, h]
  have hother : ∀ v w : Nat, ∀ e ∈ [(FAULT_CYCLE, v), (FAULT_LOC, w)], FAULT_CODE.key ≠ e.1.key := by
    simp only [List.forall_mem_cons, FAULT_CODE, FAULT_CYCLE, FAULT_LOC, fld]
    exact fun _ _ => ⟨by omega, by omega, nofun⟩
  rw [recordFault, if_pos hfills, writeFault]
  refine ⟨?_, by simp, by simp⟩
  rw [(raiseEv_kept _ _).code, setFs, getF_setFs_ne _ _ (hother _ _), getF_setF_same]
  rfl

/-- A fault found while the record is empty leaves its code in it, and keeps model memory and the result buffers. -/
theorem raiseFaultAt_of_empty (s : State) (pc code loc : Nat) (h : getF s FAULT_CODE = 0) :
    let x := raiseFaultAt s pc code loc
    getF x FAULT_CODE = code % 2 ^ 16 ∧ x.eng.mem = s.eng.mem ∧ x.hbm = s.hbm
      ∧ ∀ t p, (mmpAt x t p).results = (mmpAt s t p).results := by
  obtain ⟨hcode, heng, hhbm⟩ := recordFault_of_empty s code loc h
  have hstop : FaultAndMemoryKept (recordFault s code loc) (raiseFaultAt s pc code loc) :=
    (actOnFault_kept _).trans (stopCluster_kept _ _)
  exact ⟨hstop.code.trans hcode, hstop.mem.trans (congrArg Engine.mem heng), hstop.hbm.trans hhbm,
    fun t p => (hstop.results t p).trans (by rw [mmpAt, mmpAt, heng])⟩

/-! ## A request taken -/

@[simp] theorem getF_setMmp (s : State) (t p : Nat) (m : MmpPort) (f : Field) : getF (setMmp s t p m) f = getF s f := rfl
@[simp] theorem setMmp_mem (s : State) (t p : Nat) (m : MmpPort) : (setMmp s t p m).eng.mem = s.eng.mem := rfl
@[simp] theorem onDie_setMmp (s : State) (t p : Nat) (m : MmpPort) (u q : Nat) : onDie (setMmp s t p m) u q = onDie s u q := rfl
@[simp] theorem mmpAt_addF (s : State) (f : Field) (n t p : Nat) : mmpAt (addF s f n) t p = mmpAt s t p := rfl

/-- The state with the requests of a port replaced. -/
def withRequests (s : State) (t p : Nat) (l : List MmpAccess) : State :=
  setMmp s t p { mmpAt s t p with requests := l }

/-- In a cycle the port takes the head of its request queue, unless it is a FAR port whose stack has no free tag (R164, R172). -/
theorem exec_mmpRequestTake_of_head {s : State} {tile : BitVec 7} {port : BitVec 5} {a : MmpAccess} {rest : List MmpAccess}
    (hcycle : flag s IN_CYCLE = true) (hfree : onDie s tile.toNat port.toNat = true ∨ tagsUsed s (tile.toNat / 32) < 8192)
    (hhead : (mmpAt s tile.toNat port.toNat).requests = a :: rest) :
    exec (.mmpRequestTake tile port) s = .next
      (let u := withRequests s tile.toNat port.toNat rest
       if inRange s tile.toNat port.toNat a.addr.toNat = false then outOfRange u tile.toNat port.toNat a
       else if a.write then u else startRead u tile.toNat port.toNat a) := by
  have hgo : ¬ (¬ flag s IN_CYCLE = true ∨ (¬ onDie s tile.toNat port.toNat = true ∧ 8192 ≤ tagsUsed s (tile.toNat / 32))) := by
    rintro (hidle | ⟨hfar, hfull⟩)
    · exact hidle hcycle
    · exact Nat.not_le.2 (hfree.resolve_left hfar) hfull
  change execMmpRequestTake tile port s = _
  simp only [execMmpRequestTake, hhead]
  rw [if_neg hgo]
  simp only [withRequests, apply_ite Host.Outcome.next, Bool.not_eq_true]

/-- A read started joins the reads in flight of its port. -/
@[simp] theorem mmpAt_startRead (s : State) (t p : Nat) (a : MmpAccess) :
    mmpAt (startRead s t p a) t p
      = { mmpAt s t p with flying := (mmpAt s t p).flying ++ [{ a with far := !onDie s t p }] } := mmpAt_setMmp_same _ _ _ _

@[simp] theorem startRead_regs (s : State) (t p : Nat) (a : MmpAccess) : (startRead s t p a).regs = s.regs := rfl
@[simp] theorem startRead_mem (s : State) (t p : Nat) (a : MmpAccess) : (startRead s t p a).eng.mem = s.eng.mem := rfl
@[simp] theorem startRead_hbm (s : State) (t p : Nat) (a : MmpAccess) : (startRead s t p a).hbm = s.hbm := rfl

/-- A result that has arrived stands behind the full entries of its port. -/
@[simp] theorem mmpAt_fillResult (s : State) (t p seq v : Nat) :
    mmpAt (fillResult s t p seq v) t p
      = { mmpAt s t p with results := (mmpAt s t p).results ++ [(seq, BitVec.ofNat 256 v)] } := mmpAt_setMmp_same _ _ _ _

@[simp] theorem getF_fillResult (s : State) (t p seq v : Nat) (f : Field) : getF (fillResult s t p seq v) f = getF s f := rfl
@[simp] theorem fillResult_mem (s : State) (t p seq v : Nat) : (fillResult s t p seq v).eng.mem = s.eng.mem := rfl
@[simp] theorem fillResult_hbm (s : State) (t p seq v : Nat) : (fillResult s t p seq v).hbm = s.hbm := rfl

/-- Under the ZERO policy a read out of range is counted and fills its entry with zeros (R172). -/
theorem outOfRange_zero_read {s : State} {t p : Nat} {a : MmpAccess} (hzero : flag s (MMP_OOR_POLICY t p) = false)
    (hread : a.write = false) : outOfRange s t p a = fillResult (addF s (MMP_OOR t p) 1) t p a.seq 0 := by
  simp [outOfRange, hzero, hread]

/-! ## A result that arrives -/

/-- The state with the reads in flight of a port replaced. -/
def withFlying (s : State) (t p : Nat) (l : List MmpAccess) : State :=
  setMmp s t p { mmpAt s t p with flying := l }

/-- The result of the oldest read in flight of an on-die port arrives in its cycle: it fills the entry with the stored word, or fails
(R159, R175). -/
theorem exec_mmpResult_of_head {s : State} {tile : BitVec 7} {port : BitVec 5} {a : MmpAccess} {rest : List MmpAccess}
    (hcycle : flag s IN_CYCLE = true) (hdie : onDie s tile.toNat port.toNat = true)
    (hhead : (mmpAt s tile.toNat port.toNat).flying = a :: rest) (hseq : a.seq < 64) (hlive : a.dead = false) (err : ReadErrorKind) :
    exec (.mmpResult tile port (BitVec.ofNat 6 a.seq) err) s = .next
      (let u := withFlying s tile.toNat port.toNat rest
       let e := foundError u tile.toNat port.toNat a.addr.toNat err
       if isFailure e then failAccess u tile.toNat port.toNat a e
       else fillResult (noteCorrected u tile.toNat port.toNat a.addr.toNat e) tile.toNat port.toNat a.seq
         (readModel s tile.toNat port.toNat a.addr.toNat)) := by
  have hfind : (a :: rest).find? (fun b => b.seq == (BitVec.ofNat 6 a.seq).toNat) = some a := by
    simp [Nat.mod_eq_of_lt hseq]
  change execMmpResult tile port _ err s = _
  simp only [execMmpResult, hhead, hfind, List.erase_cons_head, hcycle, hlive, hdie, not_true, Bool.false_eq_true, or_self,
    false_and, if_false, withFlying]
  exact (apply_ite Host.Outcome.next _ _ _).symm

/-- No row of the word is marked: nothing is found in it. -/
theorem foundError_of_clean {s : State} {t p w : Nat} (hdie : onDie s t p = true)
    (hclean : (rowsOf s t p w).all (fun r => mget s.eng.memErr 0 r == 0) = true) : foundError s t p w .none = .none := by
  have hnone : ¬ (rowsOf s t p w).any (fun r => mget s.eng.memErr 0 r == 2) = true := by
    simp only [List.all_eq_true, beq_iff_eq, List.any_eq_true, not_exists, not_and] at hclean ⊢
    exact fun r hr => by simp [hclean r hr]
  rw [foundError, if_pos hdie, if_neg hnone, if_neg nofun]

/-- A row of the word holds an error that cannot be corrected: the read fails, whatever else is reported (R175). -/
theorem foundError_of_uncorrectable {s : State} {t p w : Nat} (hdie : onDie s t p = true) (err : ReadErrorKind)
    (hbad : (rowsOf s t p w).any (fun r => mget s.eng.memErr 0 r == 2) = true) : foundError s t p w err = .uncorrectable := by
  rw [foundError, if_pos hdie, if_pos hbad]

/-- Rows without a mark are left as they are. -/
theorem foundRows_of_clean (s : State) (t : Nat) (l : List Nat) (h : l.all (fun r => mget s.eng.memErr 0 r == 0) = true) :
    foundRows s t l = s := by
  induction l with
  | nil => rfl
  | cons r l ih =>
    rw [List.all_cons, Bool.and_eq_true, beq_iff_eq] at h
    have hunmarked : ¬ rowMarked s r = true := by simp [rowMarked, h.1]
    rw [foundRows, if_neg hunmarked, ih h.2]

theorem noteCorrected_of_clean {s : State} {t p w : Nat} (hdie : onDie s t p = true)
    (hclean : (rowsOf s t p w).all (fun r => mget s.eng.memErr 0 r == 0) = true) : noteCorrected s t p w .none = s := by
  rw [noteCorrected, if_pos hdie, foundRows_of_clean s t _ hclean]
  rfl

/-- An uncorrectable error of an on-die word, found while no fault is held, is the fault ECC_UNCORR; model memory and the result
buffers stay (R175). -/
theorem failAccess_uncorrectable {s : State} {t p : Nat} {a : MmpAccess} (hdie : onDie s t p = true) (hfree : getF s FAULT_CODE = 0) :
    let x := failAccess s t p a .uncorrectable
    getF x FAULT_CODE = fcEccUncorr ∧ (mmpAt x t p).results = (mmpAt s t p).results ∧ x.eng.mem = s.eng.mem ∧ x.hbm = s.hbm := by
  have herr := mmpErr_kept s t 1 p a
  obtain ⟨hcode, hmem, hhbm, hresults⟩ :=
    raiseFaultAt_of_empty (mmpErr s t 1 p a) a.pc fcEccUncorr (accessLoc s a) (herr.code.trans hfree)
  simp only [failAccess, hdie, if_true]
  exact ⟨hcode, (hresults t p).trans (herr.results t p), hmem.trans herr.mem, hhbm.trans herr.hbm⟩

/-- Settles O15, by the equation of a request taken and that of a result arrived, one case after another. -/
theorem memoryPorts : Obligations.MemoryPorts := by
  unfold Obligations.MemoryPorts
  intro s tile port a rest t p m hcycle hfree
  refine ⟨?read, ?write, ?beyond, ?result, ?bad⟩
  case read =>
    intro hhead hin hread
    refine ⟨_, exec_mmpRequestTake_of_head hcycle hfree hhead, ?_⟩
    simp [t, p, m, hin, hread, withRequests]
  case write =>
    intro hhead hin hwrite
    refine ⟨_, exec_mmpRequestTake_of_head hcycle hfree hhead, ?_⟩
    simp [t, p, m, hin, hwrite, withRequests]
  case beyond =>
    intro hhead hout hread hzero
    refine ⟨_, exec_mmpRequestTake_of_head hcycle hfree hhead, ?_⟩
    have hzero' : flag (withRequests s t p rest) (MMP_OOR_POLICY t p) = false := hzero
    simp only [t, p, hout, if_true, outOfRange_zero_read hzero' hread]
    simp [t, p, m, withRequests, getF_addF_same]
  case result =>
    intro hhead hdie hseq hlive hclean
    refine ⟨_, exec_mmpResult_of_head hcycle hdie hhead hseq hlive .none, ?_⟩
    have hdie' : onDie (withFlying s t p rest) t p = true := hdie
    have hclean' : (rowsOf (withFlying s t p rest) t p a.addr.toNat).all
        (fun r => mget (withFlying s t p rest).eng.memErr 0 r == 0) = true := hclean
    simp only [t, p, foundError_of_clean hdie' hclean', noteCorrected_of_clean hdie' hclean']
    simp [t, p, m, isFailure, withFlying]
  case bad =>
    intro hhead hdie hseq hlive hbad hempty _
    refine ⟨_, exec_mmpResult_of_head hcycle hdie hhead hseq hlive .none, ?_⟩
    have hdie' : onDie (withFlying s t p rest) t p = true := hdie
    have hbad' : (rowsOf (withFlying s t p rest) t p a.addr.toNat).any
        (fun r => mget (withFlying s t p rest).eng.memErr 0 r == 2) = true := hbad
    obtain ⟨hcode, hresults, hmem, hhbm⟩ := failAccess_uncorrectable (a := a) hdie' (s := withFlying s t p rest) hempty
    simp only [t, p, foundError_of_uncorrectable hdie' .none hbad', isFailure]
    exact ⟨hcode, hresults.trans (by simp [withFlying, m]), hmem, hhbm⟩

end Sys2Proof.Machine
end
